-- ==== Sys2Proof/Word.lean ====
section
/-! DEFINITION. Words of the block: the byte of every buffer cell, queue and stream (R70, R75) and the
millisecond time value of `TW` bits (R7, R39, R60). -/

namespace Sys2Proof

/-- A byte, an integer 0 to 255 (R10). -/
abbrev Byte := BitVec 8

/-- A time value of `TW = 32` bits, in milliseconds (R7, R12, R39). Addition and subtraction wrap modulo
`2^32`; `≤` is the unsigned comparison. -/
abbrev Time := BitVec 32

end Sys2Proof
end

