-- ==== Sys2Proof/Syntax.lean ====
section
/-! DEFINITION. The instructions of the block (R16: an instruction is an operation selected by the command byte): one
constructor per row of `opcode_table.json` (R111, R121). A constructor carries every bit of `CMD` that its row does not
fix, because `CMD` retains the whole written byte (R21); a bit the form ignores (R112) is carried too. -/

namespace Sys2Proof

/-- One form of the operation map (R111). Fields in the order of the bits of `CMD`: `ack`, `wrap`, `val` are the flag
bits 4, 3, 2; `csm` is the checksum mode field, bits 1:0; `low` is bits 4:0. -/
inductive Instr where
  | csumNone (ack wrap val : Bool)
  | csumXor7 (ack wrap val : Bool)
  | csumSum8 (ack wrap val : Bool)
  | buildUNone (ack val : Bool)
  | buildUXor7 (ack val : Bool)
  | buildUSum8 (ack val : Bool)
  | buildWNone (ack val : Bool)
  | buildWXor7 (ack val : Bool)
  | buildWSum8 (ack val : Bool)
  | decodeUNone (ack val : Bool)
  | decodeUXor7 (ack val : Bool)
  | decodeUSum8 (ack val : Bool)
  | decodeWNone (ack val : Bool)
  | decodeWXor7 (ack val : Bool)
  | decodeWSum8 (ack val : Bool)
  | xchgFF (wrap val : Bool) (csm : BitVec 2)
  | xchgN (wrap val : Bool) (csm : BitVec 2)
  | xchgAN (wrap val : Bool) (csm : BitVec 2)
  | xchgAD (val : Bool) (csm : BitVec 2)
  | xchgAB (val : Bool) (csm : BitVec 2)
  | pfx (low : BitVec 5)
  | sub (low : BitVec 5)
  | reservedOp6 (low : BitVec 5)
  | reservedOp7 (low : BitVec 5)
deriving DecidableEq, Repr

end Sys2Proof
end

