-- ==== Sys2Proof/WellFormed.lean ====
section
/-! DEFINITION. Which instructions are legal encodings (R108, R113): the checksum mode field of an exchange is not the
reserved code 3, and the operation is not one of the two reserved ones. An ill-formed instruction still has a meaning:
it is refused with `CMDERR` (R267). -/

namespace Sys2Proof

/-- `CSM = 3` is reserved (R108). -/
def legalCsm (csm : BitVec 2) : Bool := csm != 3

/-- The encoding of the instruction is legal (R113). -/
def Instr.wellFormed : Instr → Bool
  | .csumNone _ _ _ | .csumXor7 _ _ _ | .csumSum8 _ _ _ => true
  | .buildUNone _ _ | .buildUXor7 _ _ | .buildUSum8 _ _ => true
  | .buildWNone _ _ | .buildWXor7 _ _ | .buildWSum8 _ _ => true
  | .decodeUNone _ _ | .decodeUXor7 _ _ | .decodeUSum8 _ _ => true
  | .decodeWNone _ _ | .decodeWXor7 _ _ | .decodeWSum8 _ _ => true
  | .xchgFF _ _ csm | .xchgN _ _ csm | .xchgAN _ _ csm => legalCsm csm
  | .xchgAD _ csm | .xchgAB _ csm => legalCsm csm
  | .pfx _ | .sub _ => true
  | .reservedOp6 _ | .reservedOp7 _ => false

end Sys2Proof
end

