-- ==== Sys2Proof/Decode.lean ====
section
/-! DEFINITION. The command byte (R106 to R108, R111): its fields, the decoder and the encoder. The five `XCHG` forms are
selected by bits of `CMD` and by whether `EXPBYTES` is zero (R111), so the decoder takes that register too (log 15). -/

namespace Sys2Proof

/-! ### Fields of `CMD` (R106) -/

/-- `CMD[7:5] = OP`. -/
def cmdOp (c : Byte) : BitVec 3 := c.extractLsb' 5 3
/-- `CMD[4] = ACK`. -/
def cmdAck (c : Byte) : Bool := c.getLsbD 4
/-- `CMD[3] = WRAP`. -/
def cmdWrap (c : Byte) : Bool := c.getLsbD 3
/-- `CMD[2] = VAL`. -/
def cmdVal (c : Byte) : Bool := c.getLsbD 2
/-- `CMD[1:0] = CSM`. -/
def cmdCsm (c : Byte) : BitVec 2 := c.extractLsb' 0 2
/-- `CMD[4:0]`, the bits that `PFX`, `SUB` and the reserved operations do not test. -/
def cmdLow (c : Byte) : BitVec 5 := c.extractLsb' 0 5

/-! ### Decoder -/

/-- Why a command byte names no form of R111. -/
inductive DecodeError where
  /-- `CSM = 3` with `CSUM`, `BUILD` or `DECODE`: in no row of the table, refused by R110 step 4. -/
  | reservedCsm
deriving DecidableEq, Repr

/-- The `CSUM` forms (R111). -/
def decodeCsum (c : Byte) : Except DecodeError Instr :=
  match cmdCsm c with
  | 0 => .ok (.csumNone (cmdAck c) (cmdWrap c) (cmdVal c))
  | 1 => .ok (.csumXor7 (cmdAck c) (cmdWrap c) (cmdVal c))
  | 2 => .ok (.csumSum8 (cmdAck c) (cmdWrap c) (cmdVal c))
  | _ => .error .reservedCsm

/-- The `BUILD` forms (R111). -/
def decodeBuild (c : Byte) : Except DecodeError Instr :=
  match cmdWrap c, cmdCsm c with
  | false, 0 => .ok (.buildUNone (cmdAck c) (cmdVal c))
  | false, 1 => .ok (.buildUXor7 (cmdAck c) (cmdVal c))
  | false, 2 => .ok (.buildUSum8 (cmdAck c) (cmdVal c))
  | true, 0 => .ok (.buildWNone (cmdAck c) (cmdVal c))
  | true, 1 => .ok (.buildWXor7 (cmdAck c) (cmdVal c))
  | true, 2 => .ok (.buildWSum8 (cmdAck c) (cmdVal c))
  | _, _ => .error .reservedCsm

/-- The `DECODE` forms (R111). -/
def decodeDecode (c : Byte) : Except DecodeError Instr :=
  match cmdWrap c, cmdCsm c with
  | false, 0 => .ok (.decodeUNone (cmdAck c) (cmdVal c))
  | false, 1 => .ok (.decodeUXor7 (cmdAck c) (cmdVal c))
  | false, 2 => .ok (.decodeUSum8 (cmdAck c) (cmdVal c))
  | true, 0 => .ok (.decodeWNone (cmdAck c) (cmdVal c))
  | true, 1 => .ok (.decodeWXor7 (cmdAck c) (cmdVal c))
  | true, 2 => .ok (.decodeWSum8 (cmdAck c) (cmdVal c))
  | _, _ => .error .reservedCsm

/-- The `XCHG` forms (R111): by `ACK`, by whether `EXPBYTES` is zero, and for a handshake without a count by `WRAP`. -/
def decodeXchg (expbytes : BitVec 16) (c : Byte) : Instr :=
  match cmdAck c, expbytes == 0 with
  | false, true => .xchgFF (cmdWrap c) (cmdVal c) (cmdCsm c)
  | false, false => .xchgN (cmdWrap c) (cmdVal c) (cmdCsm c)
  | true, false => .xchgAN (cmdWrap c) (cmdVal c) (cmdCsm c)
  | true, true =>
    match cmdWrap c with
    | true => .xchgAD (cmdVal c) (cmdCsm c)
    | false => .xchgAB (cmdVal c) (cmdCsm c)

/-- The form that a write of `c` to `CMD` selects when the register `EXPBYTES` holds `expbytes` (R107, R111). -/
def decode (expbytes : BitVec 16) (c : Byte) : Except DecodeError Instr :=
  match cmdOp c with
  | 0 => decodeCsum c
  | 1 => decodeBuild c
  | 2 => decodeDecode c
  | 3 => .ok (decodeXchg expbytes c)
  | 4 => .ok (.pfx (cmdLow c))
  | 5 => .ok (.sub (cmdLow c))
  | 6 => .ok (.reservedOp6 (cmdLow c))
  | _ => .ok (.reservedOp7 (cmdLow c))

/-- The decoder as the host of this pipeline asks for it: the command byte is the low byte of the `nbits` bits of `w`.
The table gives no bits to `EXPBYTES`; every bit above `nbits` is 0, so `EXPBYTES` is taken as 0 (log 15). -/
def decodeTableWord (nbits w : Nat) : Option Instr :=
  match decode 0 (BitVec.ofNat 8 (w % 2 ^ nbits)) with
  | .ok i => some i
  | .error _ => none

/-! ### Encoder -/

/-- The command byte with the given fields (R106). -/
def packCmd (op : BitVec 3) (ack wrap val : Bool) (csm : BitVec 2) : Byte :=
  op ++ BitVec.ofBool ack ++ BitVec.ofBool wrap ++ BitVec.ofBool val ++ csm

/-- The command byte of an operation whose bits 4:0 are not tested (R111). -/
def packLow (op : BitVec 3) (low : BitVec 5) : Byte := op ++ low

/-- The command byte that stands for an instruction (R111). -/
def encode : Instr → Byte
  | .csumNone ack wrap val => packCmd 0 ack wrap val 0
  | .csumXor7 ack wrap val => packCmd 0 ack wrap val 1
  | .csumSum8 ack wrap val => packCmd 0 ack wrap val 2
  | .buildUNone ack val => packCmd 1 ack false val 0
  | .buildUXor7 ack val => packCmd 1 ack false val 1
  | .buildUSum8 ack val => packCmd 1 ack false val 2
  | .buildWNone ack val => packCmd 1 ack true val 0
  | .buildWXor7 ack val => packCmd 1 ack true val 1
  | .buildWSum8 ack val => packCmd 1 ack true val 2
  | .decodeUNone ack val => packCmd 2 ack false val 0
  | .decodeUXor7 ack val => packCmd 2 ack false val 1
  | .decodeUSum8 ack val => packCmd 2 ack false val 2
  | .decodeWNone ack val => packCmd 2 ack true val 0
  | .decodeWXor7 ack val => packCmd 2 ack true val 1
  | .decodeWSum8 ack val => packCmd 2 ack true val 2
  | .xchgFF wrap val csm => packCmd 3 false wrap val csm
  | .xchgN wrap val csm => packCmd 3 false wrap val csm
  | .xchgAN wrap val csm => packCmd 3 true wrap val csm
  | .xchgAD val csm => packCmd 3 true true val csm
  | .xchgAB val csm => packCmd 3 true false val csm
  | .pfx low => packLow 4 low
  | .sub low => packLow 5 low
  | .reservedOp6 low => packLow 6 low
  | .reservedOp7 low => packLow 7 low

/-- The condition on `EXPBYTES` under which a form is the one its command byte selects (R111, the table's key `cond`).
True of every form but the five of `XCHG`. -/
def formHolds (expbytes : BitVec 16) : Instr → Bool
  | .xchgFF _ _ _ | .xchgAD _ _ | .xchgAB _ _ => expbytes == 0
  | .xchgN _ _ _ | .xchgAN _ _ _ => expbytes != 0
  | .csumNone _ _ _ | .csumXor7 _ _ _ | .csumSum8 _ _ _ => true
  | .buildUNone _ _ | .buildUXor7 _ _ | .buildUSum8 _ _ => true
  | .buildWNone _ _ | .buildWXor7 _ _ | .buildWSum8 _ _ => true
  | .decodeUNone _ _ | .decodeUXor7 _ _ | .decodeUSum8 _ _ => true
  | .decodeWNone _ _ | .decodeWXor7 _ _ | .decodeWSum8 _ _ => true
  | .pfx _ | .sub _ | .reservedOp6 _ | .reservedOp7 _ => true

end Sys2Proof
end

