-- ==== Sys2Proof/Config.lean ====
section
/-! DEFINITION. What the spec fixes for an implementation: the protocol bytes (R6), the capacities (R7), the
configuration record of timing parameters and switches (R8, R9, R31), and the opaque constants that stand for what
the spec leaves open (no body: nothing in Lean can know their value). -/

namespace Sys2Proof

/-! ### Protocol bytes (R6) -/

/-- `START`, the start delimiter (R6). -/
def startByte : Byte := 0x02
/-- `END`, the end delimiter (R6). -/
def endByte : Byte := 0x03
/-- `ACK`, the positive handshake byte (R6). -/
def ackByte : Byte := 0x06
/-- `NAK`, the negative handshake byte (R6). -/
def nakByte : Byte := 0x15

/-! ### Capacities (R7) -/

/-- `PMAX`, the largest payload length (R7). -/
def pmax : Nat := 255
/-- `FMAX = PMAX + 3`, the capacity of the FRAME buffer (R7). -/
def fmax : Nat := 258
/-- `TMAX`, the capacity of the TRACE buffer (R7). -/
def tmax : Nat := 1024
/-- `RXQ_DEPTH`, the capacity of the receive queue (R7). -/
def rxqDepth : Nat := 1024
/-- `VMAX`, the capacity of each of VPFX and VSUB (R7). -/
def vmax : Nat := 255

/-- The five buffers, each its own index space (R70). -/
inductive Buf where
  | payload | frame | trace | vpfx | vsub
deriving DecidableEq, Repr

/-- The capacity of a buffer: the indices from it on do not exist (R70, R77). -/
def Buf.capacity : Buf → Nat
  | .payload => pmax
  | .frame => fmax
  | .trace => tmax
  | .vpfx => vmax
  | .vsub => vmax

/-! ### Configuration (R8, R9, R31) -/

/-- The timing parameter registers and the two behaviour switches: constant for the life of a machine, host-readable,
written by nobody (R31, R62). A claim may fix them or hold for every value. -/
structure Config where
  /-- `T_ACK_MAX`, upper bound of the handshake wait. -/
  tAckMax : Time
  /-- `T_QUIET`, quiet period between burst drains. -/
  tQuiet : Time
  /-- `T_SETTLE`, delay between the control-line pulse and the first transmitted byte. -/
  tSettle : Time
  /-- `T_CTL`, width of the control-line pulse. -/
  tCtl : Time
  /-- `BURST_STOP_ON_QUIET`. -/
  burstStopOnQuiet : Bool
  /-- `DELIM_TIMEOUT_FAILS`. -/
  delimTimeoutFails : Bool
deriving DecidableEq, Repr

/-- DESIGN CHOICE (log 8): `T_SETTLE` is OPEN in the spec (R8); this constant has no body. -/
opaque Config.openSettle : Time
/-- DESIGN CHOICE (log 8): `T_CTL` is OPEN in the spec (R8); this constant has no body. -/
opaque Config.openCtl : Time

/-- The configuration of this hardware: the values of R8 and R9, the two open ones uninterpreted. -/
def Config.hardware : Config where
  tAckMax := 300
  tQuiet := 20
  tSettle := Config.openSettle
  tCtl := Config.openCtl
  burstStopOnQuiet := false
  delimTimeoutFails := false

/-! ### Free values -/

/-- Content of a buffer cell that nothing has written since the last reset: "unspecified: any value" (R61, H10, H11).
Its arguments are the number of resets so far, the buffer and the index. Log 6. -/
opaque Config.unwritten : Nat → Buf → Nat → Byte

/-- The value of the n-th host read that "returns any value" (R62, R77, H8). Log 9. -/
opaque Config.freeRead : Nat → Nat

end Sys2Proof
end

