-- ==== Sys2Proof/Machine/State.lean ====
section
/-! DEFINITION. The state of the block as plain data: every piece of state of `10_state.md`, the inputs the engine
samples, the two streams of R70, and the model's own fields (the script of agents' moves, the host's read data, two
counters behind the free values). Also the state after reset (R61, R300) and the reasons a step can stop. -/

namespace Sys2Proof.Machine

/-! ### Names -/

/-- The engine state `ST` (R35). Codes 14 and 15 are never entered and have no value here (H12). -/
inductive EngState where
  | idle | opening | purge | ctl | settle | tx | ackwait
  | rdCount | rdDelim | rdBurst | rdQuiet | failed | release | closed
deriving DecidableEq, Repr

/-- The 4-bit code of an engine state (R35). -/
def EngState.code : EngState → Nat
  | .idle => 0 | .opening => 1 | .purge => 2 | .ctl => 3 | .settle => 4 | .tx => 5 | .ackwait => 6
  | .rdCount => 7 | .rdDelim => 8 | .rdBurst => 9 | .rdQuiet => 10 | .failed => 11 | .release => 12 | .closed => 13

/-- The error kinds of `ERRKIND` and `LASTERR` (R255, R256). -/
inductive ErrKind where
  | none | configurationMissing | transportUnavailable | handshakeTimeout | handshakeRejected
  | readTimeout | validationMismatch | transportFault
deriving DecidableEq, Repr

/-- The 3-bit code of an error kind (R256). -/
def ErrKind.code : ErrKind → Nat
  | .none => 0 | .configurationMissing => 1 | .transportUnavailable => 2 | .handshakeTimeout => 3
  | .handshakeRejected => 4 | .readTimeout => 5 | .validationMismatch => 6 | .transportFault => 7

/-- The success kinds of `SUCCKIND` (R199). -/
inductive SuccKind where
  | none | sentOnly | handshakeOnly | data
deriving DecidableEq, Repr

/-- The 2-bit code of a success kind (R199). -/
def SuccKind.code : SuccKind → Nat
  | .none => 0 | .sentOnly => 1 | .handshakeOnly => 2 | .data => 3

/-- The result codes of `DERR` (R143). Codes 5 to 7 are never written. -/
inductive DecResult where
  | ok | tooShort | badStart | badEnd | badChecksum
deriving DecidableEq, Repr

/-- The 3-bit code of a decode result (R143). -/
def DecResult.code : DecResult → Nat
  | .ok => 0 | .tooShort => 1 | .badStart => 2 | .badEnd => 3 | .badChecksum => 4

/-- How a response ends: the mode that `ReadStart` carries (R176, R289). -/
inductive ReadMode where
  | count | delim | burst
deriving DecidableEq, Repr

/-- The `info` of a raised error (R270): it is for the event log only. -/
inductive FailInfo where
  | none | ioFault | writeTimeout | rxOverrun | traceOverflow
  | counts (expected : BitVec 16) (received : Nat)
deriving DecidableEq, Repr

/-- The events `Emit` can append to `EVT` (R289). -/
inductive Event where
  | attemptStart (attempt : BitVec 8)
  | openOk | openFail | purge | ctlToggle
  | tx (b : Byte)
  | txDone (flen : Nat)
  | ackOk | nak | ackTimeout
  | ackFallthrough (b : Byte)
  | readStart (mode : ReadMode) (deadline : Time)
  | rx (b : Byte)
  | shortRead (expected : BitVec 16) (received : Nat)
  | readDeadline | quietStop
  | attemptFail (kind : ErrKind) (info : FailInfo)
  | release | validationMismatch
  | done (ok : Bool) (kind : ErrKind)
deriving DecidableEq, Repr

/-- One entry of `EVT`: an event with the value of `now` at the step that emitted it (R289). -/
structure LogEntry where
  time : Time
  event : Event
deriving DecidableEq, Repr

/-- The transport's answer to an open request: two-valued, so that grant and failure cannot both occur (R261). -/
inductive TpAnswer where
  | grant | fail
deriving DecidableEq, Repr

/-! ### Register groups -/

/-- The Connection Params bank `CP` (R26 to R29). The six opaque values have no width in the spec (R29). -/
structure ConnParams where
  valid : Bool
  tpid : Nat
  baud : Nat
  dbits : Nat
  parity : Nat
  sbits : Nat
  flow : Nat
  rdto : Time
  wrto : Time
  retries : BitVec 8
deriving DecidableEq, Repr

/-- What `tp_req` presents to `TP`: the eight values that R164 and R286 list (DESIGN CHOICE, log 25: R26 names six of them and
R165 says the latched Connection Params). -/
structure OpenRequest where
  tpid : Nat
  baud : Nat
  dbits : Nat
  parity : Nat
  sbits : Nat
  flow : Nat
  rdto : Time
  wrto : Time
deriving DecidableEq, Repr

/-- The latched copies `L.*` of the descriptor (R32). -/
structure Latched where
  plen : Nat
  ack : Bool
  wrap : Bool
  val : Bool
  csm : BitVec 2
  expbytes : BitVec 16
  rdto : Time
  cp : ConnParams
  vpfxen : Bool
  vsuben : Bool
deriving DecidableEq, Repr

/-- The content of a buffer: index and byte of every cell written since reset, indices strictly rising. A cell that is
not listed holds no known byte (R61, H11). -/
abbrev Memory := List Host.Cell

/-! ### Moves of the agents (R13) -/

/-- A host write of a descriptor register or buffer cell (R62, R77). A payload element carries a `PW = 32`-bit value
(R22); a length is any number, since a write above the capacity is handled (R77). -/
inductive HostWrite where
  | cell (b : Buf) (i : Nat) (v : BitVec 32)
  | len (b : Buf) (n : Nat)
  | expbytes (v : BitVec 16)
  | rdto (v : Time)
  | cpValid (v : Bool)
  | cpTpid (v : Nat)
  | cpBaud (v : Nat)
  | cpDbits (v : Nat)
  | cpParity (v : Nat)
  | cpSbits (v : Nat)
  | cpFlow (v : Nat)
  | cpRdto (v : Time)
  | cpWrto (v : Time)
  | cpRetries (v : BitVec 8)
  | vpfxen (v : Bool)
  | vsuben (v : Bool)
deriving DecidableEq, Repr

/-- What the host can read (R62). `RXQ`, `T0`, `DL`, `QDL`, `TXI`, `NATT`, `LASTERR` and `L.*` are never host-readable
and have no name here. -/
inductive HostReg where
  | cmd
  | cell (b : Buf) (i : Nat)
  | len (b : Buf)
  | expbytes | rdto
  | cpValid | cpTpid | cpBaud | cpDbits | cpParity | cpSbits | cpFlow | cpRdto | cpWrto | cpRetries
  | vpfxen | vsuben
  | ok | errkind | succkind | elapsed | attempts | expn | gotn | ck | derr | vres
  | busy | done | cmderr | cfgmiss | owned | rxovr
  | st | attempt
  | tAckMax | tQuiet | tSettle | tCtl | burstStopOnQuiet | delimTimeoutFails
deriving DecidableEq, Repr

/-- A move of an agent other than the issue of a command (R13, R60). -/
inductive Act where
  /-- `ENG` takes one step of the transition table, if a row is enabled (R203). -/
  | engine
  /-- `CLK` advances `now` by one millisecond (R60). -/
  | tick
  /-- `DEV` appends a byte to `RXQ`: `rx_push(b)` (R60). -/
  | rxPush (b : Byte)
  /-- `TP` answers the open request: `tp_gnt` or `tp_fail` (R60). -/
  | tpAnswer (a : TpAnswer)
  /-- `TP` signals an I/O fault: `tp_fault` (R60). -/
  | tpFault
  /-- `TP` sets the level of `tx_ready` (R60, R260). -/
  | txReady (level : Bool)
  /-- `HOST` writes a descriptor register or buffer cell (R62). -/
  | hostWrite (w : HostWrite)
  /-- `HOST` reads a register or buffer cell (R62). -/
  | hostRead (r : HostReg)
  /-- The reset input is asserted (`true`) or released (`false`) (R300, R302). -/
  | reset (level : Bool)
deriving DecidableEq, Repr

/-- One entry of the script: a host write to `CMD`, which issues a command (R21, R110), or another move. -/
inductive Move where
  | command (c : Byte)
  | act (a : Act)
deriving DecidableEq, Repr

/-! ### State -/

/-- The machine: the block, the inputs it samples, the streams of the wire, and the moves still to come. -/
structure State where
  -- Descriptor registers (R21 to R30)
  cmd : Byte
  payload : Memory
  plen : Nat
  expbytes : BitVec 16
  rdto : Time
  cp : ConnParams
  vpfx : Memory
  vplen : Nat
  vpfxen : Bool
  vsub : Memory
  vslen : Nat
  vsuben : Bool
  -- Timing parameter registers and switches (R31)
  cfg : Config
  -- Latched copies (R32)
  l : Latched
  -- Sequencing state of the engine (R35 to R39)
  st : EngState
  attempt : BitVec 8
  natt : BitVec 8
  lastErr : ErrKind
  txi : Nat
  t0 : Time
  dl : Time
  qdl : Time
  -- Buffers (R41 to R43)
  frame : Memory
  flen : Nat
  trace : Memory
  tlen : Nat
  rxq : List Byte
  -- Result registers (R44, R46)
  ok : Bool
  errkind : ErrKind
  succkind : SuccKind
  elapsed : Time
  attempts : BitVec 8
  expn : BitVec 16
  gotn : Nat
  ck : Byte
  derr : DecResult
  vres : Bool
  -- Flags (R45)
  busy : Bool
  done : Bool
  cmderr : Bool
  cfgmiss : Bool
  owned : Bool
  rxovr : Bool
  -- Outputs (R47, R48)
  ctlLine : Bool
  tpReq : Bool
  txByte : Byte
  txValid : Bool
  evt : List LogEntry
  -- Inputs (R60, R260, R300)
  now : Time
  txReady : Bool
  tpAns : Option TpAnswer
  tpFault : Bool
  resetHeld : Bool
  -- Streams (R70)
  txStream : List Byte
  rxStream : List Byte
  -- The model's own fields (logs 1, 6, 9, 10)
  script : List Move
  rdata : Nat
  freeCtr : Nat
  epoch : Nat
deriving DecidableEq, Repr

/-! ### Reasons a step can stop -/

/-- Faults: none. Every behaviour the spec gives ends in a next state (R14, R280): errors are outcome records, refusals
are flags, and a wait is a state without an engine step. An empty type is safe: no step can answer a fault. -/
inductive Fault where
deriving DecidableEq, Repr

/-- Refusals of the model. -/
inductive Refusal where
  /-- Raised by an arm of `exec` whose instruction has no meaning yet. Safe: nothing can be proved of a next state. No
  arm of this model raises it. -/
  | notModelled (mnemonic : String)
deriving DecidableEq, Repr

/-! ### Reset (R61) -/

/-- The Connection Params after reset: `CP.VALID = 0` (R61); the others are unspecified there and taken as 0 (DESIGN
CHOICE, log 4, unsafe). -/
def ConnParams.reset : ConnParams where
  valid := false
  tpid := 0
  baud := 0
  dbits := 0
  parity := 0
  sbits := 0
  flow := 0
  rdto := 0
  wrto := 0
  retries := 0

/-- The latched copies after reset: unspecified in R61, taken as 0 (DESIGN CHOICE, log 5, unsafe). -/
def Latched.reset : Latched where
  plen := 0
  ack := false
  wrap := false
  val := false
  csm := 0
  expbytes := 0
  rdto := 0
  cp := ConnParams.reset
  vpfxen := false
  vsuben := false

/-- The machine right after reset (R61, R300), the reset input released, with no move scripted. -/
def State.reset : State where
  cmd := 0
  payload := []
  plen := 0
  expbytes := 0
  rdto := 0
  cp := ConnParams.reset
  vpfx := []
  vplen := 0
  vpfxen := false
  vsub := []
  vslen := 0
  vsuben := false
  cfg := Config.hardware
  l := Latched.reset
  st := .idle
  attempt := 0
  natt := 0
  lastErr := .none
  txi := 0
  t0 := 0
  dl := 0
  qdl := 0
  frame := []
  flen := 0
  trace := []
  tlen := 0
  rxq := []
  ok := false
  errkind := .none
  succkind := .none
  elapsed := 0
  attempts := 0
  expn := 0
  gotn := 0
  ck := 0
  derr := .ok
  vres := false
  busy := false
  done := false
  cmderr := false
  cfgmiss := false
  owned := false
  rxovr := false
  ctlLine := false
  tpReq := false
  txByte := 0
  txValid := false
  evt := []
  now := 0
  txReady := false
  tpAns := none
  tpFault := false
  resetHeld := false
  txStream := []
  rxStream := []
  script := []
  rdata := 0
  freeCtr := 0
  epoch := 0

end Sys2Proof.Machine
end

