-- ==== Sys2Proof/Machine/Ops.lean ====
section
/-! DEFINITION. The named operations over buffers, the receive queue, the transmit stream and the event log (R11, R70 to
R79), and the block's trap entry and return: `raise` (R270), the failure of an attempt with its retry (R271), the release of
the transport (R285) and the write of the outcome (R44). -/

namespace Sys2Proof.Machine

/-! ### Buffer memory (R70, R75, R77) -/

/-- The byte a memory lists at an index, if any. -/
def lookup : Memory → Nat → Option Byte
  | [], _ => none
  | (a, b) :: m, i => if i = a then some b else lookup m i

/-- Writes one cell, keeping the indices strictly rising. -/
def store : Memory → Nat → Byte → Memory
  | [], i, v => [(i, v)]
  | (a, b) :: m, i, v =>
    if i < a then (i, v) :: (a, b) :: m
    else if i = a then (i, v) :: m
    else (a, b) :: store m i v

/-- Writes consecutive cells from an index on, in increasing index. -/
def storeBytes : Memory → Nat → List Byte → Memory
  | m, _, [] => m
  | m, i, v :: vs => storeBytes (store m i v) (i + 1) vs

/-- The canonical form: indices strictly rising. (An unlisted cell holds no known byte, so no entry can equal what an
unlisted cell reads as; log 6.) -/
def Memory.wf : Memory → Bool
  | [] => true
  | (a, _) :: m => m.all (fun c => decide (a < c.1)) && Memory.wf m

/-- The content of a buffer (R70). -/
def State.buf (s : State) : Buf → Memory
  | .payload => s.payload
  | .frame => s.frame
  | .trace => s.trace
  | .vpfx => s.vpfx
  | .vsub => s.vsub

/-- The length register of a buffer (R70). -/
def State.len (s : State) : Buf → Nat
  | .payload => s.plen
  | .frame => s.flen
  | .trace => s.tlen
  | .vpfx => s.vplen
  | .vsub => s.vslen

/-- Replaces the content of a buffer. -/
def State.setBuf (b : Buf) (m : Memory) (s : State) : State :=
  { s with
    payload := if b = .payload then m else s.payload
    frame := if b = .frame then m else s.frame
    trace := if b = .trace then m else s.trace
    vpfx := if b = .vpfx then m else s.vpfx
    vsub := if b = .vsub then m else s.vsub }

/-- Writes the length register of a buffer. -/
def State.setLen (b : Buf) (n : Nat) (s : State) : State :=
  { s with
    plen := if b = .payload then n else s.plen
    flen := if b = .frame then n else s.flen
    tlen := if b = .trace then n else s.tlen
    vplen := if b = .vpfx then n else s.vplen
    vslen := if b = .vsub then n else s.vslen }

/-- `MemRead(BUF[i], 1)` (R11, R75). A cell nothing has written since reset reads as a free value (H10, log 6). -/
def readCell (s : State) (b : Buf) (i : Nat) : Byte :=
  (lookup (s.buf b) i).getD (Config.unwritten s.epoch b i)

/-- `MemWrite(BUF[i], 1, v)` (R11, R75). -/
def writeCell (b : Buf) (i : Nat) (v : Byte) (s : State) : State :=
  s.setBuf b (store (s.buf b) i v)

/-- `BUF[0..n]` as a sequence of bytes (R10). -/
def bytesOf (s : State) (b : Buf) (n : Nat) : List Byte :=
  (List.range n).map (readCell s b)

/-! ### Event log (R48, R289) -/

/-- `Emit(e)`: appends an event with the value of `now` (R289). -/
def emit (e : Event) (s : State) : State :=
  { s with evt := s.evt ++ [⟨s.now, e⟩] }

/-! ### Receive queue and transmitter (R11, R43, R290) -/

/-- `RxPurge()`: empties the queue (R11) and clears `RXOVR` (R290). -/
def rxPurge (s : State) : State :=
  { s with rxq := [], rxovr := false }

/-- `TxPut(b)`: hands a byte to the transmitter (R11, R47). `tx_valid` stays 1 until the next engine step (DEDUCED,
log 11). -/
def txPut (b : Byte) (s : State) : State :=
  { s with txByte := b, txValid := true, txStream := s.txStream ++ [b] }

/-! ### Time (R12, R39) -/

/-- A wait with deadline `d` has expired: `now >= d` (R12). -/
def expired (d : Time) (s : State) : Bool := decide (d ≤ s.now)

/-- `min(a, b)` of two unsigned time values (R10). -/
def minTime (a b : Time) : Time := if a ≤ b then a else b

/-! ### The transport (R285, R286) -/

/-- What `tp_req` presents to `TP` while it is raised, from the latched copies: the eight values that R164 and R286 list, not
`CP.VALID` or `CP.RETRIES` (DESIGN CHOICE, log 25: R26 says that six are handed over, R165 the latched Connection Params). -/
def presentedParams (s : State) : Option OpenRequest :=
  if s.tpReq then
    some
      { tpid := s.l.cp.tpid, baud := s.l.cp.baud, dbits := s.l.cp.dbits, parity := s.l.cp.parity
        sbits := s.l.cp.sbits, flow := s.l.cp.flow, rdto := s.l.cp.rdto, wrto := s.l.cp.wrto }
  else none

/-- `release()`: withdraws the request and, if owned, gives up ownership and emits `Release` (R161, R285). -/
def release (s : State) : State :=
  { s with
    tpReq := false
    owned := false
    evt := s.evt ++ (if s.owned then [⟨s.now, .release⟩] else []) }

/-! ### Attempts: start, success, failure, retry (R161, R164, R270, R271) -/

/-- `start_attempt()` (R164): clears the trace and the short-read counts, raises the open request, goes to `OPENING`. -/
def startAttempt (s : State) : State :=
  { s with
    tlen := 0
    expn := 0
    gotn := 0
    tpReq := true
    evt := s.evt ++ [⟨s.now, .attemptStart s.attempt⟩]
    st := .opening }

/-- `succeed()` (R161). -/
def succeed (s : State) : State :=
  { s with st := .release }

/-- `raise K(info)`, the trap entry (R270): records the kind, emits `AttemptFail`, goes to `FAILED`; nothing else. -/
def raise (k : ErrKind) (info : FailInfo) (s : State) : State :=
  { s with
    lastErr := k
    evt := s.evt ++ [⟨s.now, .attemptFail k info⟩]
    st := .failed }

/-- Writes the outcome record and enters `CLOSED`, in one step (R44, R79, R200, R271). -/
def writeOutcome (okFlag : Bool) (kind : ErrKind) (succ : SuccKind) (s : State) : State :=
  { s with
    ok := okFlag
    errkind := kind
    succkind := succ
    elapsed := s.now - s.t0
    attempts := s.attempt
    busy := false
    done := true
    evt := s.evt ++ [⟨s.now, .done okFlag kind⟩]
    st := .closed }

/-- The step of state `FAILED`, the return from the trap (R271): releases the transport, idles the control line, then
starts the next attempt or writes the not-ok outcome with the last error. -/
def afterFailure (s : State) : State :=
  let r := { release s with ctlLine := false }
  if s.attempt < s.natt then startAttempt { r with attempt := s.attempt + 1 }
  else writeOutcome false s.lastErr .none r

/-! ### The trace (R42, R161) -/

/-- `append(b)` followed by the rest of the step (R161): at `TLEN = TMAX` it raises `TransportFault(TraceOverflow)`, does
not store the byte and abandons the rest (R270, R290). -/
def append (b : Byte) (rest : State → State) (s : State) : State :=
  if s.tlen = tmax then raise .transportFault .traceOverflow s
  else rest { s with trace := store s.trace s.tlen b, tlen := s.tlen + 1 }

end Sys2Proof.Machine
end

