-- ==== Sys2Proof/Machine/Operands.lean ====
section
/-! DEFINITION. Operand assembly (R109): the operands of every operation come from the command byte's fields and from the
descriptor registers and buffers; none is sign-extended, scaled or shifted. -/

namespace Sys2Proof.Machine

/-- The checksum modes (R108, R134). -/
inductive ChecksumMode where
  | none | xor7 | sum8
deriving DecidableEq, Repr, Inhabited

/-- The mode of a `CSM` code; code 3 is reserved (R108). -/
def modeOfCsm (csm : BitVec 2) : Option ChecksumMode :=
  if csm = 0 then some .none
  else if csm = 1 then some .xor7
  else if csm = 2 then some .sum8
  else Option.none

/-- The `CSM` code of a mode: `csm_code` of R236 (R108). -/
def csmOfMode : ChecksumMode → BitVec 2
  | .none => 0
  | .xor7 => 1
  | .sum8 => 2

/-- `mask8(v) = v mod 256` for an integer of any magnitude and sign (R131). -/
def mask8 (v : Int) : Byte := BitVec.ofInt 8 v

/-- `maskP(P)`: `mask8` of every element (R131). -/
def maskP (p : List Int) : List Byte := p.map mask8

/-- The payload operand `PAYLOAD[0..PLEN]` (R22, R109). -/
def payloadBytes (s : State) : List Byte := bytesOf s .payload s.plen

/-- The frame operand `FRAME[0..FLEN]` (R143). -/
def frameBytes (s : State) : List Byte := bytesOf s .frame s.flen

/-- The trace operand `TRACE[0..TLEN]` (R223). -/
def traceBytes (s : State) : List Byte := bytesOf s .trace s.tlen

/-- The prefix operand `VPFX[0..VPLEN]` (R223). -/
def vpfxBytes (s : State) : List Byte := bytesOf s .vpfx s.vplen

/-- The needle operand `VSUB[0..VSLEN]` (R224). -/
def vsubBytes (s : State) : List Byte := bytesOf s .vsub s.vslen

/-- `NATT = max(1, CP.RETRIES)` (R28, R163): the value 0 is raised to 1. -/
def attemptsAllowed (retries : BitVec 8) : BitVec 8 := if retries = 0 then 1 else retries

/-- The framing bytes of a form: `2*WRAP + (CSM ≠ 0)` (R110 step 6). -/
def framingBytes (c : Byte) : Nat :=
  (if cmdWrap c then 2 else 0) + (if cmdCsm c = 0 then 0 else 1)

end Sys2Proof.Machine
end

