-- ==== Sys2Proof/Machine/Flags.lean ====
section
/-! DEFINITION. The flags (R45) and the issue of a command (R110): which commands are refused (R267, R268), and what each
way of ending the handling does to `CMD`, `DONE`, `CMDERR` and `CFGMISS`. -/

namespace Sys2Proof.Machine

/-- The refusal reasons (R268). -/
inductive RefuseReason where
  | busy | reservedOp | reservedCsm | countTooLarge | frameTooLong
deriving DecidableEq, Repr

/-- The first refusal condition that a write of `c` to `CMD` meets, in the order of R110 steps 1 and 3 to 6 (R263). -/
def refusalOf (c : Byte) (s : State) : Option RefuseReason :=
  if s.busy then some .busy
  else if cmdOp c = 6 ∨ cmdOp c = 7 then some .reservedOp
  else if cmdOp c ≤ 3 ∧ cmdCsm c = 3 then some .reservedCsm
  else if cmdOp c = 3 ∧ tmax < s.expbytes.toNat then some .countTooLarge
  else if cmdOp c = 2 ∧ framingBytes c ≤ s.flen ∧ pmax < s.flen - framingBytes c then some .frameTooLong
  else none

/-- A command written while `BUSY = 1` (R110 step 1, R267): `CMDERR` and nothing else. -/
def commandWhileBusy (s : State) : State :=
  { s with cmderr := true }

/-- R110 step 2: `CMD` takes the value, `DONE` falls. -/
def takeCommand (c : Byte) (s : State) : State :=
  { s with cmd := c, done := false }

/-- `refuse(reason)` (R267). -/
def refuse (s : State) : State :=
  { s with cmderr := true, cfgmiss := false }

/-- R110 step 7: an `XCHG` without a configuration (R282). -/
def configMissing (s : State) : State :=
  { s with cfgmiss := true, cmderr := false }

/-- R110 step 8: the command is accepted. -/
def accept (s : State) : State :=
  { s with cmderr := false, cfgmiss := false }

/-- A stand-alone operation completes: `DONE <- 1` (R45). -/
def complete (s : State) : State :=
  { s with done := true }

/-- The operation of a command that is refused runs nothing (R113, R267). -/
def runNothing (s : State) : State := s

/-- A host write of `c` to `CMD` (R110), with the operation `run` that the command selects. -/
def issueCommand (c : Byte) (run : State → State) (s : State) : State :=
  match refusalOf c s with
  | some .busy => commandWhileBusy s
  | some _ => refuse (takeCommand c s)
  | none =>
    if cmdOp c = 3 ∧ s.cp.valid = false then configMissing (takeCommand c s)
    else run (accept (takeCommand c s))

end Sys2Proof.Machine
end

