-- ==== Sys2Proof/Machine/Codec.lean ====
section
/-! DEFINITION. The frame codec (`40_codec.md`): the checksums, `build_frame` and `decode_frame` as pure functions (R130 to
R139), and the meanings of the `CSUM`, `BUILD` and `DECODE` forms (R140 to R155). -/

namespace Sys2Proof.Machine

/-! ### Functions (R130 to R139) -/

/-- `xor7` of masked bytes: the XOR of all bytes, then masked to 7 bits (R132). -/
def xor7 (p : List Byte) : Byte := p.foldl (fun a b => a ^^^ b) 0 &&& 0x7F

/-- `sum8` of masked bytes: the sum modulo 256 (R133). -/
def sum8 (p : List Byte) : Byte := p.foldl (fun a b => a + b) 0

/-- `csum(M, P)`: absent for mode `None` (R134). -/
def csum : ChecksumMode → List Byte → Option Byte
  | .none, _ => Option.none
  | .xor7, p => some (xor7 p)
  | .sum8, p => some (sum8 p)

/-- The frame around a masked payload (R137): start delimiter, payload, checksum over the payload, end delimiter. -/
def frameOf (p : List Byte) (wrap : Bool) (m : ChecksumMode) : List Byte :=
  (if wrap then [startByte] else []) ++ p ++ (csum m p).toList ++ (if wrap then [endByte] else [])

/-- `build_frame(P, wrap, M)` for payload values of any magnitude and sign (R130, R131, R137). -/
def buildFrame (p : List Int) (wrap : Bool) (m : ChecksumMode) : List Byte := frameOf (maskP p) wrap m

/-- `need`, the framing bytes of a frame (R139): `2*wrap + (M ≠ None)`. -/
def framingNeed (wrap : Bool) (m : ChecksumMode) : Nat :=
  (if wrap then 2 else 0) + (if m = .none then 0 else 1)

/-- Steps 5 to 8 of `decode_frame` (R139) on the body: payload, then checksum. -/
def decodeBody (body : List Byte) (m : ChecksumMode) : Except DecResult (List Byte) :=
  match m with
  | .none => .ok body
  | m =>
    if body.getLast? = csum m body.dropLast then .ok body.dropLast
    else .error .badChecksum

/-- `decode_frame(F, wrap, M)` (R139): positional, the tests in the order of the rule. -/
def decodeFrame (f : List Byte) (wrap : Bool) (m : ChecksumMode) : Except DecResult (List Byte) :=
  if f.length < framingNeed wrap m then .error .tooShort
  else if wrap ∧ f.head? ≠ some startByte then .error .badStart
  else if wrap ∧ f.getLast? ≠ some endByte then .error .badEnd
  else decodeBody (if wrap then f.tail.dropLast else f) m

/-! ### CSUM (R135, R140 to R142) -/

/-- Writes `CK` with the checksum of the payload, 0x00 where the mode has none (R134, R140). -/
def computeChecksum (m : ChecksumMode) (s : State) : State :=
  complete { s with ck := (csum m (payloadBytes s)).getD 0 }

/-- `CSUM.NONE` (R140). -/
def execCsumNone (ack wrap val : Bool) (s : State) : Host.Outcome State Fault Refusal :=
  .next (issueCommand (encode (.csumNone ack wrap val)) (computeChecksum .none) s)

/-- `CSUM.XOR7` (R141). -/
def execCsumXor7 (ack wrap val : Bool) (s : State) : Host.Outcome State Fault Refusal :=
  .next (issueCommand (encode (.csumXor7 ack wrap val)) (computeChecksum .xor7) s)

/-- `CSUM.SUM8` (R142). -/
def execCsumSum8 (ack wrap val : Bool) (s : State) : Host.Outcome State Fault Refusal :=
  .next (issueCommand (encode (.csumSum8 ack wrap val)) (computeChecksum .sum8) s)

/-! ### BUILD (R138, R144 to R149) -/

/-- Writes `FRAME[0..len(F)]` and `FLEN` (R138, R162). -/
def loadFrame (f : List Byte) (s : State) : State :=
  { s with frame := storeBytes s.frame 0 f, flen := f.length }

/-- Builds the frame of the payload (R138). -/
def runBuild (wrap : Bool) (m : ChecksumMode) (s : State) : State :=
  complete (loadFrame (frameOf (payloadBytes s) wrap m) s)

/-- `BUILD.U.NONE` (R144). -/
def execBuildUNone (ack val : Bool) (s : State) : Host.Outcome State Fault Refusal :=
  .next (issueCommand (encode (.buildUNone ack val)) (runBuild false .none) s)

/-- `BUILD.U.XOR7` (R145). -/
def execBuildUXor7 (ack val : Bool) (s : State) : Host.Outcome State Fault Refusal :=
  .next (issueCommand (encode (.buildUXor7 ack val)) (runBuild false .xor7) s)

/-- `BUILD.U.SUM8` (R146). -/
def execBuildUSum8 (ack val : Bool) (s : State) : Host.Outcome State Fault Refusal :=
  .next (issueCommand (encode (.buildUSum8 ack val)) (runBuild false .sum8) s)

/-- `BUILD.W.NONE` (R147). -/
def execBuildWNone (ack val : Bool) (s : State) : Host.Outcome State Fault Refusal :=
  .next (issueCommand (encode (.buildWNone ack val)) (runBuild true .none) s)

/-- `BUILD.W.XOR7` (R148). -/
def execBuildWXor7 (ack val : Bool) (s : State) : Host.Outcome State Fault Refusal :=
  .next (issueCommand (encode (.buildWXor7 ack val)) (runBuild true .xor7) s)

/-- `BUILD.W.SUM8` (R149). -/
def execBuildWSum8 (ack val : Bool) (s : State) : Host.Outcome State Fault Refusal :=
  .next (issueCommand (encode (.buildWSum8 ack val)) (runBuild true .sum8) s)

/-! ### DECODE (R143, R150 to R155) -/

/-- Writes the result of a decode (R143): on success the payload and its length, else only the code. -/
def loadDecoded (r : Except DecResult (List Byte)) (s : State) : State :=
  match r with
  | .ok p => { s with payload := storeBytes s.payload 0 p, plen := p.length, derr := .ok }
  | .error e => { s with derr := e }

/-- Recovers the payload from the frame (R143). -/
def runDecode (wrap : Bool) (m : ChecksumMode) (s : State) : State :=
  complete (loadDecoded (decodeFrame (frameBytes s) wrap m) s)

/-- `DECODE.U.NONE` (R150). -/
def execDecodeUNone (ack val : Bool) (s : State) : Host.Outcome State Fault Refusal :=
  .next (issueCommand (encode (.decodeUNone ack val)) (runDecode false .none) s)

/-- `DECODE.U.XOR7` (R151). -/
def execDecodeUXor7 (ack val : Bool) (s : State) : Host.Outcome State Fault Refusal :=
  .next (issueCommand (encode (.decodeUXor7 ack val)) (runDecode false .xor7) s)

/-- `DECODE.U.SUM8` (R152). -/
def execDecodeUSum8 (ack val : Bool) (s : State) : Host.Outcome State Fault Refusal :=
  .next (issueCommand (encode (.decodeUSum8 ack val)) (runDecode false .sum8) s)

/-- `DECODE.W.NONE` (R153). -/
def execDecodeWNone (ack val : Bool) (s : State) : Host.Outcome State Fault Refusal :=
  .next (issueCommand (encode (.decodeWNone ack val)) (runDecode true .none) s)

/-- `DECODE.W.XOR7` (R154). -/
def execDecodeWXor7 (ack val : Bool) (s : State) : Host.Outcome State Fault Refusal :=
  .next (issueCommand (encode (.decodeWXor7 ack val)) (runDecode true .xor7) s)

/-- `DECODE.W.SUM8` (R155). -/
def execDecodeWSum8 (ack val : Bool) (s : State) : Host.Outcome State Fault Refusal :=
  .next (issueCommand (encode (.decodeWSum8 ack val)) (runDecode true .sum8) s)

end Sys2Proof.Machine
end

