-- ==== Sys2Proof/Machine/Exchange.lean ====
section
/-! DEFINITION. The start of an exchange (row T0 of R203, R162 to R164) and the meanings of the five forms of `XCHG` (R177 to
R179, R195, R196). What an exchange does after its start is the engine's (`Engine.lean`), chosen by the latched copies (R176). -/

namespace Sys2Proof.Machine

/-- The latched copies taken when the command `c` is accepted (R32, R162). -/
def latchDescriptor (c : Byte) (s : State) : Latched where
  plen := s.plen
  ack := cmdAck c
  wrap := cmdWrap c
  val := cmdVal c
  csm := cmdCsm c
  expbytes := s.expbytes
  rdto := s.rdto
  cp := s.cp
  vpfxen := s.vpfxen
  vsuben := s.vsuben

/-- Acceptance of `XCHG` (R162): latch, build the frame, initialise, start the first attempt. -/
def startExchange (c : Byte) (m : ChecksumMode) (s : State) : State :=
  startAttempt
    { loadFrame (frameOf (payloadBytes s) (cmdWrap c) m) s with
      l := latchDescriptor c s
      natt := attemptsAllowed s.cp.retries
      attempt := 1
      lastErr := .none
      t0 := s.now
      busy := true
      ok := false
      errkind := .none
      succkind := .none
      elapsed := 0
      attempts := 0 }

/-- A write of an `XCHG` command (R110, R162). The reserved mode code selects no operation: it is refused (R113). -/
def issueXchg (c : Byte) (s : State) : State :=
  match modeOfCsm (cmdCsm c) with
  | some m => issueCommand c (startExchange c m) s
  | none => issueCommand c runNothing s

/-- `XCHG.FF`, fire-and-forget (R177). -/
def execXchgFF (wrap val : Bool) (csm : BitVec 2) (s : State) : Host.Outcome State Fault Refusal :=
  .next (issueXchg (encode (.xchgFF wrap val csm)) s)

/-- `XCHG.N`, counted read without handshake (R178). -/
def execXchgN (wrap val : Bool) (csm : BitVec 2) (s : State) : Host.Outcome State Fault Refusal :=
  .next (issueXchg (encode (.xchgN wrap val csm)) s)

/-- `XCHG.A.N`, handshake then counted read (R179). -/
def execXchgAN (wrap val : Bool) (csm : BitVec 2) (s : State) : Host.Outcome State Fault Refusal :=
  .next (issueXchg (encode (.xchgAN wrap val csm)) s)

/-- `XCHG.A.D`, handshake then delimiter read (R195). -/
def execXchgAD (val : Bool) (csm : BitVec 2) (s : State) : Host.Outcome State Fault Refusal :=
  .next (issueXchg (encode (.xchgAD val csm)) s)

/-- `XCHG.A.B`, handshake then burst read (R196). -/
def execXchgAB (val : Bool) (csm : BitVec 2) (s : State) : Host.Outcome State Fault Refusal :=
  .next (issueXchg (encode (.xchgAB val csm)) s)

end Sys2Proof.Machine
end

