-- ==== Sys2Proof/Machine/Reserved.lean ====
section
/-! DEFINITION. The reserved operations (R107, R113): refused, `CMDERR <- 1`, nothing executed. -/

namespace Sys2Proof.Machine

/-- `OP = 6`, reserved (R113). -/
def execReservedOp6 (low : BitVec 5) (s : State) : Host.Outcome State Fault Refusal :=
  .next (issueCommand (encode (.reservedOp6 low)) runNothing s)

/-- `OP = 7`, reserved (R113). -/
def execReservedOp7 (low : BitVec 5) (s : State) : Host.Outcome State Fault Refusal :=
  .next (issueCommand (encode (.reservedOp7 low)) runNothing s)

end Sys2Proof.Machine
end

