-- ==== Sys2Proof/Machine/Validator.lean ====
section
/-! DEFINITION. The response validator (`42_validator.md`): prefix match, containment, the validation stage of an exchange
(R220 to R225), and the meanings of `PFX` and `SUB` (R223, R224). -/

namespace Sys2Proof.Machine

/-- `prefix_match(T, X)` (R221): byte-wise equality over the first `len(X)` bytes; false if the trace is shorter. -/
def prefixMatch : List Byte → List Byte → Bool
  | _, [] => true
  | [], _ :: _ => false
  | t :: ts, x :: xs => t == x && prefixMatch ts xs

/-- `contains(T, Y)` (R222): some window of the trace equals the needle; the empty needle always matches. -/
def containsRun : List Byte → List Byte → Bool
  | [], y => y.isEmpty
  | t :: ts, y => prefixMatch (t :: ts) y || containsRun ts y

/-- `validate(T)` on the trace, with the latched enables and the operand buffers (R225). -/
def validate (s : State) : Bool :=
  (!s.l.vpfxen || prefixMatch (traceBytes s) (vpfxBytes s)) &&
    (!s.l.vsuben || containsRun (traceBytes s) (vsubBytes s))

/-- Prefix match of `TRACE` against `VPFX` into `VRES`; the enable is ignored (R223). -/
def runPfx (s : State) : State :=
  complete { s with vres := prefixMatch (traceBytes s) (vpfxBytes s) }

/-- Containment of `VSUB` in `TRACE` into `VRES`; the enable is ignored (R224). -/
def runSub (s : State) : State :=
  complete { s with vres := containsRun (traceBytes s) (vsubBytes s) }

/-- `PFX` (R223). -/
def execPfx (low : BitVec 5) (s : State) : Host.Outcome State Fault Refusal :=
  .next (issueCommand (encode (.pfx low)) runPfx s)

/-- `SUB` (R224). -/
def execSub (low : BitVec 5) (s : State) : Host.Outcome State Fault Refusal :=
  .next (issueCommand (encode (.sub low)) runSub s)

end Sys2Proof.Machine
end

