-- ==== Sys2Proof/Machine/Dispatch.lean ====
section
/-! DEFINITION. One arm per instruction: the handling of its command byte (R110). -/

namespace Sys2Proof.Machine

def exec (i : Instr) (s : State) : Host.Outcome State Fault Refusal :=
  match i with
  | .csumNone ack wrap val => Sys2Proof.Machine.execCsumNone ack wrap val s
  | .csumXor7 ack wrap val => Sys2Proof.Machine.execCsumXor7 ack wrap val s
  | .csumSum8 ack wrap val => Sys2Proof.Machine.execCsumSum8 ack wrap val s
  | .buildUNone ack val => Sys2Proof.Machine.execBuildUNone ack val s
  | .buildUXor7 ack val => Sys2Proof.Machine.execBuildUXor7 ack val s
  | .buildUSum8 ack val => Sys2Proof.Machine.execBuildUSum8 ack val s
  | .buildWNone ack val => Sys2Proof.Machine.execBuildWNone ack val s
  | .buildWXor7 ack val => Sys2Proof.Machine.execBuildWXor7 ack val s
  | .buildWSum8 ack val => Sys2Proof.Machine.execBuildWSum8 ack val s
  | .decodeUNone ack val => Sys2Proof.Machine.execDecodeUNone ack val s
  | .decodeUXor7 ack val => Sys2Proof.Machine.execDecodeUXor7 ack val s
  | .decodeUSum8 ack val => Sys2Proof.Machine.execDecodeUSum8 ack val s
  | .decodeWNone ack val => Sys2Proof.Machine.execDecodeWNone ack val s
  | .decodeWXor7 ack val => Sys2Proof.Machine.execDecodeWXor7 ack val s
  | .decodeWSum8 ack val => Sys2Proof.Machine.execDecodeWSum8 ack val s
  | .xchgFF wrap val csm => Sys2Proof.Machine.execXchgFF wrap val csm s
  | .xchgN wrap val csm => Sys2Proof.Machine.execXchgN wrap val csm s
  | .xchgAN wrap val csm => Sys2Proof.Machine.execXchgAN wrap val csm s
  | .xchgAD val csm => Sys2Proof.Machine.execXchgAD val csm s
  | .xchgAB val csm => Sys2Proof.Machine.execXchgAB val csm s
  | .pfx low => Sys2Proof.Machine.execPfx low s
  | .sub low => Sys2Proof.Machine.execSub low s
  | .reservedOp6 low => Sys2Proof.Machine.execReservedOp6 low s
  | .reservedOp7 low => Sys2Proof.Machine.execReservedOp7 low s

end Sys2Proof.Machine
end

