-- ==== Sys2Proof/Machine/Engine.lean ====
section
/-! DEFINITION. The exchange engine as the transition table R203 gives it: one function per engine state, its rows in priority
order (R202, R262). A function answers `none` where no row of its state is enabled: the engine has no step there. -/

namespace Sys2Proof.Machine

/-! ### Guards shared by several states -/

/-- Row T3: a pending transport fault ends the attempt before anything else (R174, R262); the step takes it (R260). -/
def onFault (rest : Option State) (s : State) : Option State :=
  if s.tpFault then some (raise .transportFault .ioFault { s with tpFault := false }) else rest

/-- Row T4: a receive overrun ends the attempt before a byte is popped (R290, R262). -/
def onOverrun (rest : Option State) (s : State) : Option State :=
  if s.rxovr then some (raise .transportFault .rxOverrun s) else rest

/-! ### Dispatch after transmission and entry into the read phase (R176, R180, R186) -/

/-- The read mode of the latched descriptor (R176). -/
def readMode (l : Latched) : ReadMode :=
  if l.expbytes ≠ 0 then .count else if l.wrap then .delim else .burst

/-- The next state of `enter_read()`: a read that a fall-through byte has already completed is not entered (R186, R187). -/
def readEntryState (s : State) : EngState :=
  match readMode s.l with
  | .count => if s.tlen = s.l.expbytes.toNat then .release else .rdCount
  | .delim => if 0 < s.tlen ∧ readCell s .trace (s.tlen - 1) = endByte then .release else .rdDelim
  | .burst => .rdBurst

/-- `enter_read()` (R186): the overall timeout starts here. -/
def enterRead (s : State) : State :=
  emit (.readStart (readMode s.l) (s.now + s.l.rdto)) { s with dl := s.now + s.l.rdto, st := readEntryState s }

/-- The dispatch after the last transmitted byte (R172, R176, R180). -/
def afterTransmission (s : State) : State :=
  if s.l.ack then { s with dl := s.now + minTime s.l.cp.rdto s.cfg.tAckMax, st := .ackwait }
  else if s.l.expbytes = 0 then succeed s
  else enterRead s

/-! ### Opening and transmitting (R166 to R175) -/

/-- `OPENING`: rows T1 and T2 take the transport's answer; without one the engine has no step (R166, R167). -/
def stepOpening (s : State) : Option State :=
  match s.tpAns with
  | none => none
  | some .grant => some (emit .openOk { s with tpAns := none, owned := true, st := .purge })
  | some .fail => some (raise .transportUnavailable .none (emit .openFail { s with tpAns := none }))

/-- Row T5, `PURGE` (R168). -/
def doPurge (s : State) : State :=
  emit .ctlToggle
    { emit .purge { rxPurge s with tlen := 0 } with
      ctlLine := !s.ctlLine
      dl := s.now + s.cfg.tCtl
      st := .ctl }

/-- Row T6, `CTL`: ends the control pulse (R169). -/
def stepCtl (s : State) : Option State :=
  if expired s.dl s then some { s with ctlLine := !s.ctlLine, dl := s.now + s.cfg.tSettle, st := .settle } else none

/-- Row T7, `SETTLE` (R170). -/
def stepSettle (s : State) : Option State :=
  if expired s.dl s then some { s with txi := 0, dl := s.now + s.l.cp.wrto, st := .tx } else none

/-- Row T9: sends the next frame byte and restarts the write deadline (R171). -/
def transmitByte (s : State) : State :=
  let b := readCell s .frame s.txi
  { emit (.tx b) (txPut b s) with txi := s.txi + 1, dl := s.now + s.l.cp.wrto }

/-- `TX`: rows T8 to T10, in the order completion, transmitter ready, write deadline (R171 to R173, R262). -/
def stepTx (s : State) : Option State :=
  if s.txi = s.flen then some (afterTransmission (emit (.txDone s.flen) s))
  else if s.txi < s.flen then
    if s.txReady then some (transmitByte s)
    else if expired s.dl s then some (raise .transportFault .writeTimeout s)
    else none
  else none

/-! ### Handshake (R180 to R185) -/

/-- Rows T11 to T13: the first response byte, already popped (R104, R181, R182, R184). -/
def takeHandshake (b : Byte) (s : State) : State :=
  if b = nakByte then raise .handshakeRejected .none (emit .nak s)
  else if b = ackByte then enterRead (emit .ackOk s)
  else append b (fun s => enterRead (emit (.ackFallthrough b) s)) s

/-- `ACKWAIT`: rows T11 to T14. -/
def stepAckwait (s : State) : Option State :=
  match s.rxq with
  | b :: rest => some (takeHandshake b { s with rxq := rest })
  | [] => if expired s.dl s then some (raise .handshakeTimeout .none (emit .ackTimeout s)) else none

/-! ### Reading the response (R189 to R197) -/

/-- Pops have happened: appends the byte, emits `Rx`, and ends the read if `stop` says so (R189, R193, R197). -/
def takeResponse (stop : State → Bool) (b : Byte) (s : State) : State :=
  append b (fun s => if stop s then succeed (emit (.rx b) s) else emit (.rx b) s) s

/-- The short read (R192). -/
def shortRead (s : State) : State :=
  raise .readTimeout (.counts s.l.expbytes s.tlen)
    (emit .purge (rxPurge (emit (.shortRead s.l.expbytes s.tlen) { s with expn := s.l.expbytes, gotn := s.tlen })))

/-- `RD_COUNT`: rows T15 and T16 (R189, R191). -/
def stepRdCount (s : State) : Option State :=
  match s.rxq with
  | b :: rest => some (takeResponse (fun s => s.tlen == s.l.expbytes.toNat) b { s with rxq := rest })
  | [] => if expired s.dl s then some (shortRead s) else none

/-- Row T18: a delimiter read that reaches its deadline (R194). -/
def delimDeadline (s : State) : State :=
  if s.cfg.delimTimeoutFails then
    raise .readTimeout (.counts 0 s.tlen) (emit .readDeadline { s with expn := 0, gotn := s.tlen })
  else succeed (emit .readDeadline s)

/-- `RD_DELIM`: rows T17 and T18 (R193, R194). -/
def stepRdDelim (s : State) : Option State :=
  match s.rxq with
  | b :: rest => some (takeResponse (fun _ => b == endByte) b { s with rxq := rest })
  | [] => if expired s.dl s then some (delimDeadline s) else none

/-- `RD_BURST`: rows T19 to T21 (R197). -/
def stepRdBurst (s : State) : Option State :=
  match s.rxq with
  | b :: rest => some (takeResponse (fun _ => false) b { s with rxq := rest })
  | [] =>
    if expired s.dl s then some (succeed (emit .readDeadline s))
    else some { s with qdl := minTime (s.now + s.cfg.tQuiet) s.dl, st := .rdQuiet }

/-- `RD_QUIET`: row T22 (R197). -/
def stepRdQuiet (s : State) : Option State :=
  if expired s.qdl s then
    if s.cfg.burstStopOnQuiet ∧ 0 < s.tlen ∧ s.rxq = [] then some (succeed (emit .quietStop s))
    else some { s with st := .rdBurst }
  else none

/-! ### End of the exchange (R199, R200) -/

/-- The success kind of a successful attempt (R199). -/
def successKind (s : State) : SuccKind :=
  if s.l.ack = false ∧ s.l.expbytes = 0 then .sentOnly
  else if s.l.ack ∧ s.tlen = 0 then .handshakeOnly
  else .data

/-- Row T24, `RELEASE`: release, validate, write the outcome (R200, R225, R226). -/
def finishSuccess (s : State) : State :=
  if s.l.val ∧ validate s = false then
    writeOutcome false .validationMismatch .none (emit .validationMismatch (release s))
  else writeOutcome true .none (successKind s) (release s)

/-! ### The engine -/

/-- The rows of R203 for the engine's state, in priority order. -/
def engineRows (s : State) : Option State :=
  match s.st with
  | .idle => none
  | .opening => stepOpening s
  | .purge => onFault (some (doPurge s)) s
  | .ctl => onFault (stepCtl s) s
  | .settle => onFault (stepSettle s) s
  | .tx => onFault (stepTx s) s
  | .ackwait => onFault (onOverrun (stepAckwait s) s) s
  | .rdCount => onFault (onOverrun (stepRdCount s) s) s
  | .rdDelim => onFault (onOverrun (stepRdDelim s) s) s
  | .rdBurst => onFault (onOverrun (stepRdBurst s) s) s
  | .rdQuiet => onFault (onOverrun (stepRdQuiet s) s) s
  | .failed => some (afterFailure s)
  | .release => some (finishSuccess s)
  | .closed => none

/-- One step of `ENG`: the first enabled row, or none (R203). A byte handed over by an earlier step is no longer presented
(`tx_valid` falls; log 11). -/
def engineStep (s : State) : Option State :=
  engineRows { s with txValid := false }

end Sys2Proof.Machine
end

