-- ==== Sys2Proof/Machine/HostPort.lean ====
section
/-! DEFINITION. The host's access to registers and buffers (R62, R77, R90, R283): writes are lost while the engine owns the
block, out-of-range writes set `CMDERR`, reads have no side effect on the block. -/

namespace Sys2Proof.Machine

/-! ### Writes -/

/-- A host write that the block takes: host-owned (R62). -/
def performWrite (w : HostWrite) (s : State) : State :=
  match w with
  | .cell b i v =>
    if i < b.capacity then writeCell b i (mask8 v.toNat) s else { s with cmderr := true }
  | .len b n => if n ≤ b.capacity then s.setLen b n else { s with cmderr := true }
  | .expbytes v => { s with expbytes := v }
  | .rdto v => { s with rdto := v }
  | .cpValid v => { s with cp := { s.cp with valid := v } }
  | .cpTpid v => { s with cp := { s.cp with tpid := v } }
  | .cpBaud v => { s with cp := { s.cp with baud := v } }
  | .cpDbits v => { s with cp := { s.cp with dbits := v } }
  | .cpParity v => { s with cp := { s.cp with parity := v } }
  | .cpSbits v => { s with cp := { s.cp with sbits := v } }
  | .cpFlow v => { s with cp := { s.cp with flow := v } }
  | .cpRdto v => { s with cp := { s.cp with rdto := v } }
  | .cpWrto v => { s with cp := { s.cp with wrto := v } }
  | .cpRetries v => { s with cp := { s.cp with retries := v } }
  | .vpfxen v => { s with vpfxen := v }
  | .vsuben v => { s with vsuben := v }

/-- A host write of a descriptor register or buffer cell: ignored without a flag while `BUSY = 1` (R283). -/
def hostWrite (w : HostWrite) (s : State) : State :=
  if s.busy then s else performWrite w s

/-! ### Reads -/

/-- A 1-bit value. -/
def bit (b : Bool) : Nat := if b then 1 else 0

/-- The width in bits of what a read returns, the bound that an "any value" read keeps (R7, R21 to R48). The six opaque
params have no width and never read as any value. -/
def HostReg.width : HostReg → Nat
  | .cmd | .cell _ _ | .ck | .attempt | .attempts | .cpRetries => 8
  | .len .payload | .len .vpfx | .len .vsub => 8
  | .len .frame => 9
  | .len .trace | .gotn => 11
  | .expbytes | .expn => 16
  | .rdto | .cpRdto | .cpWrto | .elapsed | .tAckMax | .tQuiet | .tSettle | .tCtl => 32
  | .cpTpid | .cpBaud | .cpDbits | .cpParity | .cpSbits | .cpFlow => 0
  | .errkind | .derr => 3
  | .succkind => 2
  | .st => 4
  | .cpValid | .vpfxen | .vsuben | .ok | .vres => 1
  | .busy | .done | .cmderr | .cfgmiss | .owned | .rxovr => 1
  | .burstStopOnQuiet | .delimTimeoutFails => 1

/-- A register that reads validly only while host-owned; else "any value" (R62, R90). -/
def whenHostOwned (s : State) (v : Nat) : Option Nat := if s.busy then none else some v

/-- A buffer cell: valid below the length register, and for `FRAME` and `TRACE` only while host-owned (R62, R77). -/
def readBufferCell (s : State) (b : Buf) (i : Nat) : Option Nat :=
  if s.len b ≤ i then none
  else
    match b with
    | .frame | .trace => whenHostOwned s (readCell s b i).toNat
    | .payload | .vpfx | .vsub => some (readCell s b i).toNat

/-- What a host read returns: a value, or `none` where the spec says "any value" (R62, R77). -/
def readValue (r : HostReg) (s : State) : Option Nat :=
  match r with
  | .cmd => some s.cmd.toNat
  | .cell b i => readBufferCell s b i
  | .len .payload => some s.plen
  | .len .vpfx => some s.vplen
  | .len .vsub => some s.vslen
  | .len .frame => whenHostOwned s s.flen
  | .len .trace => whenHostOwned s s.tlen
  | .expbytes => some s.expbytes.toNat
  | .rdto => some s.rdto.toNat
  | .cpValid => some (bit s.cp.valid)
  | .cpTpid => some s.cp.tpid
  | .cpBaud => some s.cp.baud
  | .cpDbits => some s.cp.dbits
  | .cpParity => some s.cp.parity
  | .cpSbits => some s.cp.sbits
  | .cpFlow => some s.cp.flow
  | .cpRdto => some s.cp.rdto.toNat
  | .cpWrto => some s.cp.wrto.toNat
  | .cpRetries => some s.cp.retries.toNat
  | .vpfxen => some (bit s.vpfxen)
  | .vsuben => some (bit s.vsuben)
  | .ok => whenHostOwned s (bit s.ok)
  | .errkind => whenHostOwned s s.errkind.code
  | .succkind => whenHostOwned s s.succkind.code
  | .elapsed => whenHostOwned s s.elapsed.toNat
  | .attempts => whenHostOwned s s.attempts.toNat
  | .expn => whenHostOwned s s.expn.toNat
  | .gotn => whenHostOwned s s.gotn
  | .ck => whenHostOwned s s.ck.toNat
  | .derr => whenHostOwned s s.derr.code
  | .vres => whenHostOwned s (bit s.vres)
  | .busy => some (bit s.busy)
  | .done => some (bit s.done)
  | .cmderr => some (bit s.cmderr)
  | .cfgmiss => some (bit s.cfgmiss)
  | .owned => some (bit s.owned)
  | .rxovr => some (bit s.rxovr)
  | .st => some s.st.code
  | .attempt => some s.attempt.toNat
  | .tAckMax => some s.cfg.tAckMax.toNat
  | .tQuiet => some s.cfg.tQuiet.toNat
  | .tSettle => some s.cfg.tSettle.toNat
  | .tCtl => some s.cfg.tCtl.toNat
  | .burstStopOnQuiet => some (bit s.cfg.burstStopOnQuiet)
  | .delimTimeoutFails => some (bit s.cfg.delimTimeoutFails)

/-- A host read: the value goes to the host (`rdata`); where it is any value, a free value bounded by the width, a new one
at each such read (R62, H8; log 9). -/
def hostRead (r : HostReg) (s : State) : State :=
  match readValue r s with
  | some v => { s with rdata := v }
  | none => { s with rdata := Config.freeRead s.freeCtr % 2 ^ r.width, freeCtr := s.freeCtr + 1 }

end Sys2Proof.Machine
end

