-- ==== Sys2Proof/Machine/Environment.lean ====
section
/-! DEFINITION. The moves of the agents other than the issue of a command (R13, R60, R260, R261, R300, R302). -/

namespace Sys2Proof.Machine

/-- `CLK`: `now` advances by one millisecond (R60). -/
def tick (s : State) : State :=
  { s with now := s.now + 1 }

/-- `DEV`: `rx_push(b)` appends a byte; into a full queue it drops the byte and sets `RXOVR` (R43, R290). -/
def rxPush (b : Byte) (s : State) : State :=
  if s.rxq.length < rxqDepth then { s with rxq := s.rxq ++ [b], rxStream := s.rxStream ++ [b] }
  else { s with rxovr := true, rxStream := s.rxStream ++ [b] }

/-- `TP` answers the open request (R260, R261): pending in `OPENING` until the engine takes it, one answer per request;
anywhere else it is ignored and not remembered (log 12). -/
def tpAnswer (a : TpAnswer) (s : State) : State :=
  if s.st = .opening ∧ s.tpReq ∧ s.owned = false ∧ s.tpAns = none then { s with tpAns := some a } else s

/-- The states in which a transport fault is looked at: `PURGE` to `RD_QUIET` (R174, R260). -/
def EngState.faultVisible : EngState → Bool
  | .purge | .ctl | .settle | .tx | .ackwait | .rdCount | .rdDelim | .rdBurst | .rdQuiet => true
  | .idle | .opening | .failed | .release | .closed => false

/-- `TP` signals a fault (R260, R261, R265): pending until the engine takes it; ignored while not owned and in the states
that do not look at it (log 13). -/
def tpFaultMove (s : State) : State :=
  if s.owned ∧ s.st.faultVisible then { s with tpFault := true } else s

/-- `TP` sets the level of `tx_ready` (R260). -/
def setTxReady (level : Bool) (s : State) : State :=
  { s with txReady := level }

/-- The reset input is asserted (R300, R302): every piece of state takes its reset value; `now`, the inputs' levels, the
configuration and the bytes already on the wire are not the block's (R61; logs 7, 17). The next epoch's unwritten cells are new free
values (log 6). -/
def assertReset (s : State) : State :=
  { State.reset with
    cfg := s.cfg
    now := s.now
    txReady := s.txReady
    resetHeld := true
    txStream := s.txStream
    rxStream := s.rxStream
    script := s.script
    rdata := s.rdata
    freeCtr := s.freeCtr
    epoch := s.epoch + 1 }

/-- The level of the reset input changes (R300): a rise asserts it, a fall releases it with every value as it stands. -/
def setReset (level : Bool) (s : State) : State :=
  if level && !s.resetHeld then assertReset s else { s with resetHeld := level }

/-- A scripted step of the engine: its enabled row, or nothing if none is enabled (R203). -/
def engineMove (s : State) : State := (engineStep s).getD s

/-- A move of an agent other than the issue of a command, with the reset input released. -/
def applyAct (a : Act) (s : State) : State :=
  match a with
  | .engine => engineMove s
  | .tick => tick s
  | .rxPush b => rxPush b s
  | .tpAnswer a => tpAnswer a s
  | .tpFault => tpFaultMove s
  | .txReady level => setTxReady level s
  | .hostWrite w => hostWrite w s
  | .hostRead r => hostRead r s
  | .reset level => setReset level s

/-- A move of an agent while the reset input is asserted (R300): every piece of state keeps its reset value. The clock, the level of
`tx_ready`, the device's bytes on the wire, the value of a host read and the release of reset are not the block's state; all
else is lost (log 21). -/
def actWhileReset (a : Act) (s : State) : State :=
  match a with
  | .tick => tick s
  | .txReady level => setTxReady level s
  | .rxPush b => { s with rxStream := s.rxStream ++ [b] }
  | .hostRead r => hostRead r s
  | .reset level => setReset level s
  | .engine | .tpAnswer _ | .tpFault | .hostWrite _ => s

/-- A scripted move of an agent other than the issue of a command. -/
def performAct (a : Act) (s : State) : State :=
  if s.resetHeld then actWhileReset a s else applyAct a s

/-- With no move scripted the reference schedule goes on with a silent environment (R202 (3), log 2): the engine steps while
a row is enabled, else `CLK` advances `now`; under a held reset only `CLK` moves (R300). -/
def runAlone (s : State) : State :=
  if s.resetHeld then tick s
  else
    match engineStep s with
    | some s' => s'
    | none => tick s

/-- A host write to `CMD` of a byte that names no form (`CSM = 3` with `CSUM`, `BUILD` or `DECODE`): refused (R110 step 4,
R113; log 16). -/
def rejectCommand (c : Byte) (s : State) : State := issueCommand c runNothing s

/-- A host write to `CMD` while the reset input is asserted is lost (R300; log 21). -/
def commandWhileReset (s : State) : State := s

/-- Puts a host write of a command byte at the head of the script, with the reset input released so that it is taken. -/
def placeCommand (nbits w : Nat) (s : State) : State :=
  { s with resetHeld := false, script := .command (BitVec.ofNat 8 (w % 2 ^ nbits)) :: s.script }

end Sys2Proof.Machine
end

