-- ==== Sys2Proof/Machine/Step.lean ====
section
/-! DEFINITION. One step of the machine: the next move of the script. A command move fetches the command byte, decodes it with
the register `EXPBYTES` (R111) and runs it; any other move is an agent's; with an empty script the reference schedule goes on. A held
reset keeps every value (R300). -/

namespace Sys2Proof.Machine

/-- One step (R13, R79): moves are atomic and happen one at a time. -/
def step (s : State) : Host.Outcome State Fault Refusal :=
  match s.script with
  | [] => .next (runAlone s)
  | .act a :: rest => .next (performAct a { s with script := rest })
  | .command c :: rest =>
    if s.resetHeld then .next (commandWhileReset { s with script := rest })
    else
      match decode s.expbytes c with
      | .ok i => exec i { s with script := rest }
      | .error _ => .next (rejectCommand c { s with script := rest })

/-- `s` with the command byte (the low byte of the `nbits` bits of `w`) as the next move, so that the next step runs it
(log 3). -/
def State.withFetchWord (s : State) (nbits w : Nat) : State := placeCommand nbits w s

end Sys2Proof.Machine
end

