-- ==== Sys2Proof/Machine/Catalog.lean ====
section
/-! DEFINITION. The command catalog (`43_catalog.md`): seven presets, each a pure function of an argument mapping to a Frame
Spec (R235), and the host writes a Frame Spec expands to (R236, R247, R301). The values the spec leaves open are opaque
constants with the constraints of R248 (log 24). The engine does not depend on this file (R235). -/

namespace Sys2Proof.Machine

/-! ### Frame Specs and their expansion (R25, R236, R247) -/

/-- A Frame Spec (R25). Payload elements are `PW`-bit values, masked when the host writes them (R22). -/
structure FrameSpec where
  payload : List (BitVec 32)
  wrap : Bool
  mode : ChecksumMode
  expectAck : Bool
  expectBytes : BitVec 16
  readTimeout : Time
deriving DecidableEq, Repr

/-- A byte sequence as the `PW`-bit values that the host writes (R22). -/
def widen (bs : List Byte) : List (BitVec 32) := bs.map (fun b => b.setWidth 32)

/-- The host write of a register or cell, as a move. -/
def writeMove (w : HostWrite) : Move := .act (.hostWrite w)

/-- The host writes that load a buffer from index 0 and set its length (R236, R301). -/
def loadBuffer (b : Buf) (vs : List (BitVec 32)) : List Move :=
  vs.zipIdx.map (fun p => writeMove (.cell b p.2 p.1)) ++ [writeMove (.len b vs.length)]

/-- The descriptor writes of a Frame Spec, without the command (R236). -/
def frameSpecWrites (fs : FrameSpec) : List Move :=
  loadBuffer .payload fs.payload ++ [writeMove (.expbytes fs.expectBytes), writeMove (.rdto fs.readTimeout)]

/-- The `XCHG` command byte of a Frame Spec (R236; `VAL` as R247 says). -/
def frameSpecCommand (fs : FrameSpec) (val : Bool) : Byte :=
  packCmd 3 fs.expectAck fs.wrap val (csmOfMode fs.mode)

/-- The host sequence that runs a Frame Spec without validation (R236). -/
def runFrameSpec (fs : FrameSpec) : List Move :=
  frameSpecWrites fs ++ [.command (frameSpecCommand fs false)]

/-- One operand of the validation bank: its bytes, length and enable; absent means the check is disabled (R30, R247). -/
def loadCheck (b : Buf) (enable : Bool → HostWrite) (check : Option (List Byte)) : List Move :=
  match check with
  | some bs => loadBuffer b (widen bs) ++ [writeMove (enable true)]
  | none => [writeMove (enable false)]

/-- The explicit send/validate mode: the validation bank, then the command with `VAL = 1` (R247). -/
def runSendValidate (fs : FrameSpec) (expectedPrefix contained : Option (List Byte)) : List Move :=
  frameSpecWrites fs ++ loadCheck .vpfx .vpfxen expectedPrefix ++ loadCheck .vsub .vsuben contained ++
    [.command (frameSpecCommand fs true)]

/-- Loading the Connection Params (R301 step 1): the nine values, then `CP.VALID`. -/
def loadParams (p : ConnParams) : List Move :=
  [writeMove (.cpTpid p.tpid), writeMove (.cpBaud p.baud), writeMove (.cpDbits p.dbits), writeMove (.cpParity p.parity),
    writeMove (.cpSbits p.sbits), writeMove (.cpFlow p.flow), writeMove (.cpRdto p.rdto), writeMove (.cpWrto p.wrto),
    writeMove (.cpRetries p.retries), writeMove (.cpValid p.valid)]

/-! ### Arguments (R237, R238) -/

/-- The six time fields of a timestamp (R246). -/
structure Timestamp where
  year : Nat
  month : Nat
  day : Nat
  hour : Nat
  minute : Nat
  second : Nat
deriving DecidableEq, Repr

/-- The recognized keys, and any other key (R238). -/
inductive ArgKey where
  | expectAck | expectBytes | readTimeoutMs | datetime
  | other (name : String)
deriving DecidableEq, Repr

/-- The value of an override: of a recognized type, or of another one (R237, R238). -/
inductive ArgValue where
  | bool (b : Bool)
  | int (v : Int)
  | timestamp (t : Timestamp)
  | text (s : String)
deriving DecidableEq, Repr

/-- An argument mapping; the first entry of a key counts. -/
abbrev ArgMap := List (ArgKey × ArgValue)

/-- The value an argument mapping gives a key, if any. -/
def argValue (a : ArgMap) (k : ArgKey) : Option ArgValue :=
  match a with
  | [] => none
  | (k', v) :: rest => if k' = k then some v else argValue rest k

/-- `value(k)` for a bool key: absent or mismatched overrides fall back to the default (R237). -/
def boolArg (a : ArgMap) (k : ArgKey) (d : Bool) : Bool :=
  match argValue a k with
  | some (.bool b) => b
  | _ => d

/-- `value(k)` for an int key held in a register of `w` bits: a value the register cannot hold counts as mismatched (R237). -/
def intArg (w : Nat) (a : ArgMap) (k : ArgKey) (d : BitVec w) : BitVec w :=
  match argValue a k with
  | some (.int v) => if 0 ≤ v ∧ v < 2 ^ w then BitVec.ofInt w v else d
  | _ => d

/-- `value(datetime)`: the host's current time is the default (R246). -/
def timestampArg (a : ArgMap) (k : ArgKey) (d : Timestamp) : Timestamp :=
  match argValue a k with
  | some (.timestamp t) => t
  | _ => d

/-! ### Open parameters (R248): no bodies -/

/-- The checksum modes a domain command may use: `Xor7` or `Sum8`, not `None` (R243, R248). -/
inductive DomainMode where
  | xor7 | sum8
deriving DecidableEq, Repr, Inhabited

/-- A domain command's mode as a checksum mode. -/
def DomainMode.toMode : DomainMode → ChecksumMode
  | .xor7 => .xor7
  | .sum8 => .sum8

/-- `PROBE_PAYLOAD`, a byte sequence (R248). -/
opaque Catalog.probePayload : List Byte
/-- `PROBE_ACK_DEFAULT` (R248). -/
opaque Catalog.probeAckDefault : Bool
/-- `PROBE_EXP_DEFAULT` (R248). -/
opaque Catalog.probeExpDefault : BitVec 16
/-- `PROBE_RDTO_DEFAULT` (R248). -/
opaque Catalog.probeRdtoDefault : Time
/-- `PROBE_W_PAYLOAD`, a byte sequence (R248). -/
opaque Catalog.probeWPayload : List Byte
/-- `PROBE_W_CSM` (R248). -/
opaque Catalog.probeWCsm : ChecksumMode
/-- `PROBE_W_ACK_DEFAULT` (R248). -/
opaque Catalog.probeWAckDefault : Bool
/-- `PROBE_W_RDTO_DEFAULT` (R248). -/
opaque Catalog.probeWRdtoDefault : Time
/-- `SEND_ONLY_PAYLOAD`, 22 bytes (R241, R248). -/
opaque Catalog.sendOnlyPayload : Vector Byte 22
/-- `SEND_ONLY_WRAP` (R248). -/
opaque Catalog.sendOnlyWrap : Bool
/-- `SEND_ONLY_CSM` (R248). -/
opaque Catalog.sendOnlyCsm : ChecksumMode
/-- The unused read timeout of `SEND_ONLY` (R241). -/
opaque Catalog.sendOnlyRdto : Time
/-- `ACK_ONLY_PAYLOAD`, a byte sequence (R248). -/
opaque Catalog.ackOnlyPayload : List Byte
/-- `ACK_ONLY_CSM` (R248). -/
opaque Catalog.ackOnlyCsm : ChecksumMode
/-- `ACK_ONLY_RDTO_DEFAULT` (R248). -/
opaque Catalog.ackOnlyRdtoDefault : Time
/-- `STATUS_Q_PAYLOAD`, a byte sequence (R248). -/
opaque Catalog.statusQPayload : List Byte
/-- `STATUS_Q_CSM` (R243, R248). -/
opaque Catalog.statusQCsm : DomainMode
/-- `STATUS_Q_WRAP` (R248). -/
opaque Catalog.statusQWrap : Bool
/-- `STATUS_Q_ACK_DEFAULT` (R248). -/
opaque Catalog.statusQAckDefault : Bool
/-- `STATUS_Q_EXP_DEFAULT` (R248). -/
opaque Catalog.statusQExpDefault : BitVec 16
/-- `STATUS_Q_RDTO_DEFAULT` (R248). -/
opaque Catalog.statusQRdtoDefault : Time
/-- `CLOCK_Q_PAYLOAD`, a byte sequence (R248). -/
opaque Catalog.clockQPayload : List Byte
/-- `CLOCK_Q_CSM` (R244, R248). -/
opaque Catalog.clockQCsm : DomainMode
/-- `CLOCK_Q_WRAP` (R248). -/
opaque Catalog.clockQWrap : Bool
/-- `CLOCK_Q_ACK_DEFAULT` (R248). -/
opaque Catalog.clockQAckDefault : Bool
/-- `CLOCK_Q_EXP_DEFAULT` (R248). -/
opaque Catalog.clockQExpDefault : BitVec 16
/-- `CLOCK_Q_RDTO_DEFAULT` (R248). -/
opaque Catalog.clockQRdtoDefault : Time
/-- `clock_set_payload`, a function of the six time fields; its values may be wider than a byte before they are masked (R246,
R248; log 24). -/
opaque Catalog.clockSetPayload : Timestamp → List (BitVec 32)
/-- `CLOCK_SET_CSM` (R246, R248). -/
opaque Catalog.clockSetCsm : DomainMode
/-- `CLOCK_SET_WRAP` (R248). -/
opaque Catalog.clockSetWrap : Bool
/-- `CLOCK_SET_ACK_DEFAULT` (R248). -/
opaque Catalog.clockSetAckDefault : Bool
/-- `CLOCK_SET_EXP_DEFAULT` (R248). -/
opaque Catalog.clockSetExpDefault : BitVec 16
/-- `CLOCK_SET_RDTO_DEFAULT` (R248). -/
opaque Catalog.clockSetRdtoDefault : Time

/-! ### The seven presets (R239 to R246) -/

/-- The preset names (R235). -/
inductive Preset where
  | probe | probeW | sendOnly | ackOnly | statusQ | clockQ | clockSet
deriving DecidableEq, Repr

/-- `PROBE` (R239): plain unwrapped probe with no checksum. -/
def probeSpec (a : ArgMap) : FrameSpec where
  payload := widen Catalog.probePayload
  wrap := false
  mode := .none
  expectAck := boolArg a .expectAck Catalog.probeAckDefault
  expectBytes := intArg 16 a .expectBytes Catalog.probeExpDefault
  readTimeout := intArg 32 a .readTimeoutMs Catalog.probeRdtoDefault

/-- `PROBE_W` (R240): wrapped probe; no explicit count means 0. -/
def probeWSpec (a : ArgMap) : FrameSpec where
  payload := widen Catalog.probeWPayload
  wrap := true
  mode := Catalog.probeWCsm
  expectAck := boolArg a .expectAck Catalog.probeWAckDefault
  expectBytes := intArg 16 a .expectBytes 0
  readTimeout := intArg 32 a .readTimeoutMs Catalog.probeWRdtoDefault

/-- `SEND_ONLY` (R241): ack disabled, no response read; nothing is overridable. -/
def sendOnlySpec : FrameSpec where
  payload := widen Catalog.sendOnlyPayload.toList
  wrap := Catalog.sendOnlyWrap
  mode := Catalog.sendOnlyCsm
  expectAck := false
  expectBytes := 0
  readTimeout := Catalog.sendOnlyRdto

/-- `ACK_ONLY` (R242): ack enabled, zero expected bytes, unwrapped; only the timeout is overridable. -/
def ackOnlySpec (a : ArgMap) : FrameSpec where
  payload := widen Catalog.ackOnlyPayload
  wrap := false
  mode := Catalog.ackOnlyCsm
  expectAck := true
  expectBytes := 0
  readTimeout := intArg 32 a .readTimeoutMs Catalog.ackOnlyRdtoDefault

/-- `STATUS_Q` (R243). -/
def statusQSpec (a : ArgMap) : FrameSpec where
  payload := widen Catalog.statusQPayload
  wrap := Catalog.statusQWrap
  mode := Catalog.statusQCsm.toMode
  expectAck := boolArg a .expectAck Catalog.statusQAckDefault
  expectBytes := intArg 16 a .expectBytes Catalog.statusQExpDefault
  readTimeout := intArg 32 a .readTimeoutMs Catalog.statusQRdtoDefault

/-- `CLOCK_Q` (R244). -/
def clockQSpec (a : ArgMap) : FrameSpec where
  payload := widen Catalog.clockQPayload
  wrap := Catalog.clockQWrap
  mode := Catalog.clockQCsm.toMode
  expectAck := boolArg a .expectAck Catalog.clockQAckDefault
  expectBytes := intArg 16 a .expectBytes Catalog.clockQExpDefault
  readTimeout := intArg 32 a .readTimeoutMs Catalog.clockQRdtoDefault

/-- `CLOCK_SET` (R246), at a host whose current time is `current`. -/
def clockSetSpec (current : Timestamp) (a : ArgMap) : FrameSpec where
  payload := Catalog.clockSetPayload (timestampArg a .datetime current)
  wrap := Catalog.clockSetWrap
  mode := Catalog.clockSetCsm.toMode
  expectAck := boolArg a .expectAck Catalog.clockSetAckDefault
  expectBytes := intArg 16 a .expectBytes Catalog.clockSetExpDefault
  readTimeout := intArg 32 a .readTimeoutMs Catalog.clockSetRdtoDefault

/-- The Frame Spec a preset builds (R235). -/
def presetSpec (current : Timestamp) (p : Preset) (a : ArgMap) : FrameSpec :=
  match p with
  | .probe => probeSpec a
  | .probeW => probeWSpec a
  | .sendOnly => sendOnlySpec
  | .ackOnly => ackOnlySpec a
  | .statusQ => statusQSpec a
  | .clockQ => clockQSpec a
  | .clockSet => clockSetSpec current a

/-- The moves that running a preset expands to (R236). -/
def runPreset (current : Timestamp) (p : Preset) (a : ArgMap) : List Move :=
  runFrameSpec (presetSpec current p a)

end Sys2Proof.Machine
end

