-- ==== Sys2Proof/Safety.lean ====
section
/-! DEFINITION. What counts as a safe state and run, in the terms the claims use: four invariants of the machine (buffers,
ownership, the engine's counters, the outcome record), the balance of opens and releases in the event log, and the order of
the bytes on the two streams; also the forms by their operand fields, what a stand-alone or refused command leaves, the layout
of a frame, the reset values, and the type of an override. -/

namespace Sys2Proof.Machine

/-! ### Phases of the engine state -/

/-- The engine-owned states: an exchange is running (R62, R283). -/
def EngState.engineOwned : EngState → Bool
  | .idle | .closed => false
  | .opening | .purge | .ctl | .settle | .tx | .ackwait => true
  | .rdCount | .rdDelim | .rdBurst | .rdQuiet | .failed | .release => true

/-- The states before the first byte of the response can be kept: the trace is empty there (R164, R168, R183). -/
def EngState.beforeResponse : EngState → Bool
  | .opening | .purge | .ctl | .settle | .tx | .ackwait => true
  | .idle | .rdCount | .rdDelim | .rdBurst | .rdQuiet | .failed | .release | .closed => false

/-- The states that look at a receive overrun (R290). -/
def EngState.reading : EngState → Bool
  | .ackwait | .rdCount | .rdDelim | .rdBurst | .rdQuiet => true
  | .idle | .opening | .purge | .ctl | .settle | .tx | .failed | .release | .closed => false

/-! ### Buffers -/

/-- Every buffer is in canonical form, lists only cells that exist, and its length register is within its capacity; the
receive queue is within its depth (R7, R43, R70, R77). -/
structure BufferInv (s : State) : Prop where
  canonical : ∀ b, (s.buf b).wf = true
  existing : ∀ b, ∀ c ∈ s.buf b, c.1 < b.capacity
  length : ∀ b, s.len b ≤ b.capacity
  queue : s.rxq.length ≤ rxqDepth

/-! ### Ownership -/

/-- Who owns the block and the transport follows from the engine state (R45, R204 (a), R283, R285), and the pending inputs
stand only in the states that look at them (R260, R261); the control line is off its idle level exactly during the pulse, until the
failure of the attempt restores it (R169, R270, R271). -/
structure OwnershipInv (s : State) : Prop where
  busyIff : s.busy = s.st.engineOwned
  requestIff : s.tpReq = s.st.engineOwned
  doneIdle : s.done = true → s.busy = false
  ownedWhileUsed : s.st.faultVisible = true ∨ s.st = .release → s.owned = true
  notOwned : s.st = .idle ∨ s.st = .opening ∨ s.st = .closed → s.owned = false
  answerPending : s.tpAns ≠ none → s.st = .opening
  faultPending : s.tpFault = true → s.st.faultVisible = true
  controlIdle : s.ctlLine = true → s.st = .ctl ∨ s.st = .failed
  controlPulse : s.st = .ctl → s.ctlLine = true

/-! ### Counters and latched copies of the running exchange -/

/-- While an exchange runs its attempt number is within the budget (R36, R163), the latched copies are legal (R110) and fit
the state the engine is in (R176), and the trace length fits too (R38, R168, R186, R199). -/
structure EngineInv (s : State) : Prop where
  attemptRange : s.busy = true → 1 ≤ s.attempt.toNat ∧ s.attempt.toNat ≤ s.natt.toNat
  budget : s.busy = true → s.natt.toNat = max 1 s.l.cp.retries.toNat
  countLegal : s.busy = true → s.l.expbytes.toNat ≤ tmax
  modeLegal : s.busy = true → s.l.csm ≠ 3
  txIndex : s.st = .tx → s.txi ≤ s.flen
  traceEmpty : s.st.beforeResponse = true → s.tlen = 0
  handshake : s.st = .ackwait → s.l.ack = true
  counting : s.st = .rdCount → s.tlen < s.l.expbytes.toNat
  seeking : s.st = .rdDelim → s.l.ack = true ∧ s.l.wrap = true ∧ s.l.expbytes = 0
  bursting : s.st = .rdBurst ∨ s.st = .rdQuiet → s.l.ack = true ∧ s.l.wrap = false ∧ s.l.expbytes = 0
  counted : s.st = .release → s.l.expbytes ≠ 0 → s.tlen = s.l.expbytes.toNat
  silent : s.st = .release → s.l.ack = false → s.l.expbytes = 0 → s.tlen = 0

/-! ### The outcome record -/

/-- The outcome record is consistent (R44, R199, R256, R271): an ok outcome has no error kind, a not-ok one no success kind,
`ConfigurationMissing` never appears, and in `CLOSED` exactly one of success and error is recorded. -/
structure OutcomeInv (s : State) : Prop where
  okNoError : s.ok = true → s.errkind = .none
  notOkNoSuccess : s.ok = false → s.succkind = .none
  neverMissing : s.errkind ≠ .configurationMissing ∧ s.lastErr ≠ .configurationMissing
  failedHasError : s.st = .failed → s.lastErr ≠ .none
  closedDecided : s.st = .closed → (s.ok = true ↔ s.errkind = .none) ∧ (s.ok = true ↔ s.succkind ≠ .none)

/-! ### The event log -/

/-- How many entries of the log are this event. -/
def countEvent (e : Event) (log : List LogEntry) : Nat := log.countP (fun x => decide (x.event = e))

/-- Every `OpenOk` has its `Release`, but for the transport owned now (R204 (d)). -/
def openBalance (s : State) : Prop :=
  countEvent .openOk s.evt = countEvent .release s.evt + (if s.owned then 1 else 0)

/-- The number of `AttemptStart` events after the last `Done`: one step per entry, oldest first. -/
def attemptsSinceDone (log : List LogEntry) : Nat :=
  log.foldl (fun n x => match x.event with | .attemptStart _ => n + 1 | .done _ _ => 0 | _ => n) 0

/-! ### The streams -/

/-- What the block holds of the receive stream is a subsequence of it, in order: the queue always, and while an exchange
runs the trace followed by the queue (R73). -/
def receivedInOrder (s : State) : Prop :=
  s.rxq.Sublist s.rxStream ∧ (s.busy = true → (traceBytes s ++ s.rxq).Sublist s.rxStream)

/-- In `TX` the last bytes of the transmit stream are the frame bytes already sent in this attempt, in index order (R72,
R171). -/
def sentInOrder (s : State) : Prop :=
  s.st = .tx → ∃ before, s.txStream = before ++ bytesOf s .frame s.txi

/-! ### One turn of an agent -/

/-- The step in which the next move of the script is `a`. -/
def State.turn (a : Act) (s : State) : Host.Outcome State Fault Refusal :=
  step { s with script := .act a :: s.script }

/-- The host's descriptor registers that an exchange latches or consumes at its start (R32, R162), taken from `d`; the rest
from `s`. -/
def State.withDescriptorOf (d s : State) : State :=
  { s with
    cmd := d.cmd
    payload := d.payload
    plen := d.plen
    expbytes := d.expbytes
    rdto := d.rdto
    cp := d.cp
    vpfxen := d.vpfxen
    vsuben := d.vsuben }

/-! ### Forms by their operand fields (R111) -/

/-- The `CSUM` form of a mode. -/
def csumForm (m : ChecksumMode) (ack wrap val : Bool) : Instr :=
  match m with
  | .none => .csumNone ack wrap val
  | .xor7 => .csumXor7 ack wrap val
  | .sum8 => .csumSum8 ack wrap val

/-- The `BUILD` form of a wrap flag and a mode. -/
def buildForm (wrap : Bool) (m : ChecksumMode) (ack val : Bool) : Instr :=
  match wrap, m with
  | false, .none => .buildUNone ack val
  | false, .xor7 => .buildUXor7 ack val
  | false, .sum8 => .buildUSum8 ack val
  | true, .none => .buildWNone ack val
  | true, .xor7 => .buildWXor7 ack val
  | true, .sum8 => .buildWSum8 ack val

/-- The `DECODE` form of a wrap flag and a mode. -/
def decodeForm (wrap : Bool) (m : ChecksumMode) (ack val : Bool) : Instr :=
  match wrap, m with
  | false, .none => .decodeUNone ack val
  | false, .xor7 => .decodeUXor7 ack val
  | false, .sum8 => .decodeUSum8 ack val
  | true, .none => .decodeWNone ack val
  | true, .xor7 => .decodeWXor7 ack val
  | true, .sum8 => .decodeWSum8 ack val

/-- The instruction is one of the five forms of `XCHG`. -/
def isExchange : Instr → Bool
  | .xchgFF _ _ _ | .xchgN _ _ _ | .xchgAN _ _ _ | .xchgAD _ _ | .xchgAB _ _ => true
  | .csumNone _ _ _ | .csumXor7 _ _ _ | .csumSum8 _ _ _ => false
  | .buildUNone _ _ | .buildUXor7 _ _ | .buildUSum8 _ _ => false
  | .buildWNone _ _ | .buildWXor7 _ _ | .buildWSum8 _ _ => false
  | .decodeUNone _ _ | .decodeUXor7 _ _ | .decodeUSum8 _ _ => false
  | .decodeWNone _ _ | .decodeWXor7 _ _ | .decodeWSum8 _ _ => false
  | .pfx _ | .sub _ | .reservedOp6 _ | .reservedOp7 _ => false

/-- What an accepted stand-alone command changes besides its result registers: `CMD` keeps the written byte, `DONE` ends at 1,
`CMDERR` and `CFGMISS` at 0 (R45, R110). -/
def afterStandAlone (i : Instr) (s : State) : State :=
  { s with cmd := encode i, done := true, cmderr := false, cfgmiss := false }

/-- What a refused command changes while the block is host-owned (R110, R267). -/
def afterRefusal (c : Byte) (s : State) : State :=
  { s with cmd := c, done := false, cmderr := true, cfgmiss := false }

/-! ### What the validation stage asks for (R221, R222, R225) -/

/-- The first `VPLEN` bytes of the trace are the prefix operand. -/
def prefixHolds (s : State) : Prop :=
  s.vplen ≤ s.tlen ∧ ∀ i < s.vplen, readCell s .trace i = readCell s .vpfx i

/-- Some window of the trace is the needle operand. -/
def containmentHolds (s : State) : Prop :=
  ∃ p, p + s.vslen ≤ s.tlen ∧ ∀ j < s.vslen, readCell s .trace (p + j) = readCell s .vsub j

/-- Each check that the latched descriptor enables holds of the trace. -/
def validationPasses (s : State) : Prop :=
  (s.l.vpfxen = true → prefixHolds s) ∧ (s.l.vsuben = true → containmentHolds s)

/-- The log entry that giving up the transport adds: one `Release` if it is owned (R285). -/
def releaseEntries (s : State) : List LogEntry :=
  if s.owned then [⟨s.now, .release⟩] else []

/-! ### The layout of a frame (R101) -/

/-- `f` has every field of R101 at its index: the length, the masked payload `p` from index `wrap`, the checksum byte after it if
the mode has one, and the two delimiters if wrapped. -/
structure FrameLayout (p : List Byte) (wrap : Bool) (m : ChecksumMode) (f : List Byte) : Prop where
  length : f.length = p.length + 2 * wrap.toNat + (if m = .none then 0 else 1)
  startDelimiter : wrap = true → f[0]? = some startByte
  payload : ∀ i < p.length, f[i + wrap.toNat]? = p[i]?
  checksum : ∀ c, csum m p = some c → f[p.length + wrap.toNat]? = some c
  endDelimiter : wrap = true → f[f.length - 1]? = some endByte

/-! ### The reset values (R61, R300) -/

/-- Every piece of state to which R61 gives a reset value has it, and no input is pending (R300). -/
def resetValuesHold (s : State) : Prop :=
  s.st = .idle ∧ s.busy = false ∧ s.done = false ∧ s.ok = false ∧ s.cmderr = false ∧ s.cfgmiss = false ∧
  s.owned = false ∧ s.rxovr = false ∧ s.cmd = 0x00 ∧ (∀ b, s.len b = 0) ∧ s.vpfxen = false ∧
  s.vsuben = false ∧ s.expbytes = 0 ∧ s.rdto = 0 ∧ s.cp.valid = false ∧ s.rxq = [] ∧ s.attempt = 0 ∧
  s.natt = 0 ∧ s.txi = 0 ∧ s.lastErr = .none ∧ s.errkind = .none ∧ s.succkind = .none ∧ s.elapsed = 0 ∧
  s.attempts = 0 ∧ s.expn = 0 ∧ s.gotn = 0 ∧ s.ck = 0 ∧ s.derr = .ok ∧ s.vres = false ∧
  s.ctlLine = false ∧ s.tpReq = false ∧ s.txValid = false ∧ s.evt = [] ∧
  s.tpAns = none ∧ s.tpFault = false

/-! ### The type of an override (R237, R238) -/

/-- The value has the type of the key: a Boolean, an integer that the register of 16 or 32 bits can hold, a timestamp. No value has
the type of an unrecognized key. -/
def ArgKey.accepts (k : ArgKey) (v : ArgValue) : Prop :=
  match k with
  | .expectAck => ∃ b, v = .bool b
  | .expectBytes => ∃ n : Int, v = .int n ∧ 0 ≤ n ∧ n < 2 ^ 16
  | .readTimeoutMs => ∃ n : Int, v = .int n ∧ 0 ≤ n ∧ n < 2 ^ 32
  | .datetime => ∃ t, v = .timestamp t
  | .other _ => False

end Sys2Proof.Machine
end

