-- ==== Sys2Proof/Certificates/Slice0/Obligations.lean ====
section
/-! DEFINITION. The statements for the provers. A statement about a step of the engine speaks of every field of the state but
`txValid`, whose fall is the model's reading (log 11). -/

open Sys2Proof Sys2Proof.Machine

/-! ## Encoding -/

/-- Decoding the encoding of an instruction gives the instruction back, under the condition on `EXPBYTES` that its form has
(R106, R111). -/
def Obligations.DecodeOfEncode : Prop :=
  ∀ (e : BitVec 16) (i : Instr), formHolds e i = true → decode e (encode i) = .ok i

/-- A decoded command byte is the encoding of its instruction, with no bit dropped, and the form's condition holds (R111). -/
def Obligations.EncodeOfDecode : Prop :=
  ∀ (e : BitVec 16) (c : Byte) (i : Instr), decode e c = .ok i → encode i = c ∧ formHolds e i = true

/-- The bytes outside the table are those of `CSUM`, `BUILD` and `DECODE` with `CSM = 3`; the decoded instructions that are
ill-formed are the two reserved operations and `XCHG` with `CSM = 3` (R113; the decoder's error is the model's, log 16). -/
def Obligations.ReservedEncodings : Prop :=
  ∀ (e : BitVec 16) (c : Byte),
    ((∃ r, decode e c = .error r) ↔ (c >>> 5).toNat ≤ 2 ∧ c &&& 3 = 3) ∧
    ((∃ i, decode e c = .ok i ∧ i.wellFormed = false) ↔
      6 ≤ (c >>> 5).toNat ∨ ((c >>> 5).toNat = 3 ∧ c &&& 3 = 3))

/-- A few command bytes written out from R111, one per operation. -/
def Obligations.WrittenWordsDecode : Prop :=
  decode 0 0b00000010 = .ok (.csumSum8 false false false) ∧
  decode 0 0b00101001 = .ok (.buildWXor7 false false) ∧
  decode 0 0b01010100 = .ok (.decodeUNone true true) ∧
  decode 0 0b01101010 = .ok (.xchgFF true false 2) ∧
  decode 7 0b01100101 = .ok (.xchgN false true 1) ∧
  decode 3 0b01111001 = .ok (.xchgAN true false 1) ∧
  decode 0 0b01111110 = .ok (.xchgAD true 2) ∧
  decode 0 0b01110000 = .ok (.xchgAB false 0) ∧
  decode 0 0b10000011 = .ok (.pfx 3) ∧
  decode 0 0b10110000 = .ok (.sub 16) ∧
  decode 0 0b11000000 = .ok (.reservedOp6 0) ∧
  decode 0 0b11111111 = .ok (.reservedOp7 31)

/-- A command move runs the instruction that its byte and the register `EXPBYTES` decode to; `withFetchWord` makes it the next
move, with the reset input released. The script is the model's (logs 1 and 3). -/
def Obligations.StepRunsDecodedCommand : Prop :=
  (∀ (s : State) (c : Byte) (rest : List Move) (i : Instr),
    s.resetHeld = false → s.script = .command c :: rest → decode s.expbytes c = .ok i →
      step s = exec i { s with script := rest }) ∧
  (∀ (s : State) (i : Instr), formHolds s.expbytes i = true →
    step (s.withFetchWord 8 (encode i).toNat) = exec i { s with resetHeld := false })

/-! ## The frame codec -/

/-- A built frame has every field at the index R101 gives it, for every payload, wrap flag and mode. -/
def Obligations.FrameHasLayout : Prop :=
  (∀ (p : List Int) (wrap : Bool) (m : ChecksumMode), FrameLayout (maskP p) wrap m (buildFrame p wrap m)) ∧
  buildFrame [] false .none = [] ∧ buildFrame [] false .xor7 = [0x00] ∧ buildFrame [] false .sum8 = [0x00]

/-- The six laws of the codec, (a) to (f) of R156 in order. -/
def Obligations.CodecLaws : Prop :=
  (∀ (p : List Int) (m : ChecksumMode),
    (buildFrame p true m).head? = some startByte ∧ (buildFrame p true m).getLast? = some endByte ∧
    (buildFrame p true m).length = p.length + 2 + (if m = .none then 0 else 1)) ∧
  (∀ (p : List Int) (m : ChecksumMode),
    (buildFrame p false m).length = p.length + (if m = .none then 0 else 1) ∧
    (buildFrame p false m).take p.length = maskP p ∧
    ∀ (d : Byte) (i : Nat), d = startByte ∨ d = endByte →
      ((buildFrame p false m)[i]? = some d ↔
        (maskP p)[i]? = some d ∨ (i = p.length ∧ csum m (maskP p) = some d))) ∧
  (∀ (p : List Int) (wrap : Bool) (m : ChecksumMode),
    buildFrame p wrap m = buildFrame ((maskP p).map (fun b => (b.toNat : Int))) wrap m) ∧
  (∀ (p : List Int) (wrap : Bool) (m : ChecksumMode),
    decodeFrame (buildFrame p wrap m) wrap m = .ok (maskP p) ∧
    ((∀ v ∈ p, 0 ≤ v ∧ v ≤ 255) → (maskP p).map (fun b => (b.toNat : Int)) = p)) ∧
  (buildFrame [] false .none = [] ∧ buildFrame [] false .xor7 = [0x00] ∧ buildFrame [] false .sum8 = [0x00] ∧
    buildFrame [] true .none = [0x02, 0x03] ∧ buildFrame [] true .xor7 = [0x02, 0x00, 0x03] ∧
    buildFrame [] true .sum8 = [0x02, 0x00, 0x03]) ∧
  (∃ (f p q : List Byte) (wrap wrap' : Bool) (m m' : ChecksumMode),
    decodeFrame f wrap m = .ok p ∧ decodeFrame f wrap' m' = .ok q ∧ p ≠ q)

/-- `mask8` is the remainder modulo 256 of an integer of any sign, fixes bytes, is idempotent, and `maskP` applies it to every
element in order (R131). -/
def Obligations.MaskIsRemainder : Prop :=
  (∀ v : Int, ((mask8 v).toNat : Int) = v % 256 ∧ mask8 (mask8 v).toNat = mask8 v) ∧
  (∀ v : Int, 0 ≤ v → v ≤ 255 → ((mask8 v).toNat : Int) = v) ∧
  (mask8 256 = 0x00 ∧ mask8 0x141 = 0x41 ∧ mask8 (-1) = 0xFF ∧ mask8 (-128) = 0x80) ∧
  (∀ p : List Int, (maskP p).length = p.length ∧ ∀ i : Nat, (maskP p)[i]? = (p[i]?).map mask8)

/-- Bit `k < 7` of `xor7` of a masked payload is the parity of its bytes' bits `k`, bit 7 is 0; masking the bytes to 7 bits first
gives the same result; the empty payload gives 0 (R132, whose last two points the spec marks as its inference). -/
def Obligations.Xor7IsBitParity : Prop :=
  (∀ (p : List Int) (k : Nat), k < 7 →
    (xor7 (maskP p)).getLsbD k = decide ((maskP p).countP (fun b => b.getLsbD k) % 2 = 1)) ∧
  (∀ p : List Int, (xor7 (maskP p)).toNat ≤ 127 ∧ xor7 ((maskP p).map (fun b => b &&& 0x7F)) = xor7 (maskP p)) ∧
  xor7 [] = 0

/-- `sum8` of a masked payload is the sum of its unsigned bytes modulo 256 and can be accumulated byte by byte; the empty sum is 0
(R133, whose last two points the spec marks as its inference). -/
def Obligations.Sum8IsSumModulo256 : Prop :=
  (∀ p : List Int, (sum8 (maskP p)).toNat = ((maskP p).map (fun b => b.toNat)).sum % 256) ∧
  (∀ (p : List Int) (v : Int), sum8 (maskP (p ++ [v])) = sum8 (maskP p) + mask8 v) ∧ sum8 [] = 0

/-- `decode_frame` accepts exactly the frames with the layout of R101 and gives their payload back; otherwise it reports the
first defect in the order of R139. -/
def Obligations.DecodeFrameReportsFirstDefect : Prop :=
  ∀ (f : List Byte) (wrap : Bool) (m : ChecksumMode),
    (f.length < 2 * wrap.toNat + (if m = .none then 0 else 1) → decodeFrame f wrap m = .error .tooShort) ∧
    (2 * wrap.toNat + (if m = .none then 0 else 1) ≤ f.length → wrap = true → f[0]? ≠ some startByte →
      decodeFrame f wrap m = .error .badStart) ∧
    (2 * wrap.toNat + (if m = .none then 0 else 1) ≤ f.length → wrap = true → f[0]? = some startByte →
      f[f.length - 1]? ≠ some endByte → decodeFrame f wrap m = .error .badEnd) ∧
    (∀ p, decodeFrame f wrap m = .ok p ↔ FrameLayout p wrap m f) ∧
    (2 * wrap.toNat + (if m = .none then 0 else 1) ≤ f.length →
      (wrap = true → f[0]? = some startByte ∧ f[f.length - 1]? = some endByte) →
      (∀ p, ¬ FrameLayout p wrap m f) → decodeFrame f wrap m = .error .badChecksum)

/-! ## The stand-alone instructions -/

/-- `CSUM.NONE`, encoded `000 x x x 00`, writes 0x00 to `CK` whatever the payload is, and `DONE` (R140). -/
def Obligations.CsumNoneWritesZero : Prop :=
  ∀ (ack wrap val : Bool) (s : State), s.busy = false →
    encode (.csumNone ack wrap val) &&& 0b11100011 = 0b00000000 ∧
    exec (.csumNone ack wrap val) s = .next { afterStandAlone (.csumNone ack wrap val) s with ck := 0x00 }

/-- `CSUM.XOR7`, encoded `000 x x x 01`, writes to `CK` the parity of each of the low seven bits over the payload, with bit 7 at 0,
and `DONE`; nothing else (R141). -/
def Obligations.CsumXor7WritesParity : Prop :=
  ∀ (ack wrap val : Bool) (s : State), s.busy = false →
    encode (.csumXor7 ack wrap val) &&& 0b11100011 = 0b00000001 ∧
    ∃ t, exec (.csumXor7 ack wrap val) s = .next t ∧
      { t with ck := s.ck } = afterStandAlone (.csumXor7 ack wrap val) s ∧
      (∀ k < 7, t.ck.getLsbD k = decide ((payloadBytes s).countP (fun b => b.getLsbD k) % 2 = 1)) ∧
      t.ck.getLsbD 7 = false ∧
      (s.plen = 0 → t.ck = 0x00) ∧ (∀ b, payloadBytes s = [b] → t.ck = b &&& 0x7F)

/-- `CSUM.SUM8`, encoded `000 x x x 10`, writes to `CK` the sum of the payload bytes modulo 256, and `DONE`; nothing else
(R142). -/
def Obligations.CsumSum8WritesSum : Prop :=
  ∀ (ack wrap val : Bool) (s : State), s.busy = false →
    encode (.csumSum8 ack wrap val) &&& 0b11100011 = 0b00000010 ∧
    ∃ t, exec (.csumSum8 ack wrap val) s = .next t ∧
      { t with ck := s.ck } = afterStandAlone (.csumSum8 ack wrap val) s ∧
      t.ck.toNat = ((payloadBytes s).map (fun b => b.toNat)).sum % 256

/-- Each of the six forms of `BUILD` writes the frame of the payload to `FRAME` and its length to `FLEN`, and nothing else but
`DONE`; the cells of `FRAME` from `FLEN` on keep their bytes (R138, R144 to R149). -/
def Obligations.BuildWritesFrame : Prop :=
  ∀ (wrap : Bool) (m : ChecksumMode) (ack val : Bool) (s : State), s.busy = false →
    ∃ t, exec (buildForm wrap m ack val) s = .next t ∧
      { t with frame := s.frame, flen := s.flen } = afterStandAlone (buildForm wrap m ack val) s ∧
      FrameLayout (payloadBytes s) wrap m (frameBytes t) ∧
      ∀ i, t.flen ≤ i → readCell t .frame i = readCell s .frame i

/-- Each of the six forms of `DECODE`, on a frame with a payload that fits, writes that payload and its length and the code
`Ok`, and nothing else but `DONE` (R143, R150 to R155). -/
def Obligations.DecodeRecoversPayload : Prop :=
  ∀ (wrap : Bool) (m : ChecksumMode) (ack val : Bool) (s : State) (p : List Byte), s.busy = false →
    FrameLayout p wrap m (frameBytes s) → p.length ≤ pmax →
    ∃ t, exec (decodeForm wrap m ack val) s = .next t ∧
      { t with payload := s.payload, plen := s.plen, derr := s.derr } =
        afterStandAlone (decodeForm wrap m ack val) s ∧
      t.derr = .ok ∧ t.plen = p.length ∧ payloadBytes t = p ∧
      ∀ i, p.length ≤ i → readCell t .payload i = readCell s .payload i

/-- A form of `DECODE` on bytes that are no frame of its kind writes the code of the first defect to `DERR` and leaves the
payload alone (R143, R150 to R155); a body longer than `PMAX` is not this case (R110 step 6). -/
def Obligations.DecodeReportsDefect : Prop :=
  ∀ (wrap : Bool) (m : ChecksumMode) (ack val : Bool) (s : State), s.busy = false →
    (∀ p, ¬ FrameLayout p wrap m (frameBytes s)) →
    s.flen ≤ 2 * wrap.toNat + (if m = .none then 0 else 1) + pmax →
    exec (decodeForm wrap m ack val) s = .next
      { afterStandAlone (decodeForm wrap m ack val) s with
        derr :=
          if s.flen < 2 * wrap.toNat + (if m = .none then 0 else 1) then .tooShort
          else if wrap = true ∧ readCell s .frame 0 ≠ startByte then .badStart
          else if wrap = true ∧ readCell s .frame (s.flen - 1) ≠ endByte then .badEnd
          else .badChecksum }

/-- `PFX`, encoded `100 x x x xx`, writes to `VRES` whether the first `VPLEN` bytes of the trace are the prefix, and `DONE`; nothing
else; the enable is ignored (R221, R223). -/
def Obligations.PfxComparesPrefix : Prop :=
  ∀ (low : BitVec 5) (s : State), s.busy = false →
    encode (.pfx low) &&& 0b11100000 = 0b10000000 ∧
    ∃ t, exec (.pfx low) s = .next t ∧ { t with vres := s.vres } = afterStandAlone (.pfx low) s ∧
      (t.vres = true ↔ prefixHolds s)

/-- `SUB`, encoded `101 x x x xx`, writes to `VRES` whether some window of the trace is the needle, and `DONE`; nothing else; the
enable is ignored (R222, R224). -/
def Obligations.SubFindsWindow : Prop :=
  ∀ (low : BitVec 5) (s : State), s.busy = false →
    encode (.sub low) &&& 0b11100000 = 0b10100000 ∧
    ∃ t, exec (.sub low) s = .next t ∧ { t with vres := s.vres } = afterStandAlone (.sub low) s ∧
      (t.vres = true ↔ containmentHolds s)

/-! ## The issue of a command -/

/-- Every refusal of R268, for every command byte: while busy only `CMDERR` rises; else `CMD` takes the byte, `DONE` and `CFGMISS`
fall, `CMDERR` rises and nothing else changes (R267). -/
def Obligations.RefusedCommands : Prop :=
  ∀ (s : State) (c : Byte) (rest : List Move), s.resetHeld = false → s.script = .command c :: rest →
    (s.busy = true → step s = .next { s with script := rest, cmderr := true }) ∧
    (s.busy = false →
      (6 ≤ (c >>> 5).toNat ∨ ((c >>> 5).toNat ≤ 3 ∧ c &&& 3 = 3) ∨
        ((c >>> 5).toNat = 3 ∧ tmax < s.expbytes.toNat) ∨
        ((c >>> 5).toNat = 2 ∧
          2 * (c.getLsbD 3).toNat + (if c &&& 3 = 0 then 0 else 1) + pmax < s.flen)) →
      step s = .next (afterRefusal c { s with script := rest }))

/-- The two reserved operations, and an exchange with the reserved mode, are refused: `CMDERR` rises and nothing runs (R113). -/
def Obligations.IllFormedIsRefused : Prop :=
  ∀ (i : Instr) (s : State), i.wellFormed = false → s.busy = false →
    exec i s = .next (afterRefusal (encode i) s)

/-- Each of the five forms of `XCHG`, accepted: the descriptor is latched, the frame built, the exchange initialised and the first
attempt started, in one step, and nothing else changes (R162, R163, R164). That the open request presents these eight values is the
model's choice among R164, R26 and R165 (log 25). -/
def Obligations.XchgStartsExchange : Prop :=
  ∀ (i : Instr) (s : State), isExchange i = true → i.wellFormed = true → formHolds s.expbytes i = true →
    s.busy = false → s.expbytes.toNat ≤ tmax → s.cp.valid = true →
    ∃ t m, exec i s = .next t ∧ cmdCsm (encode i) = csmOfMode m ∧
      { t with frame := s.frame, flen := s.flen, natt := s.natt } =
        { s with
          cmd := encode i, done := false, cmderr := false, cfgmiss := false
          l :=
            { plen := s.plen, ack := (encode i).getLsbD 4, wrap := (encode i).getLsbD 3
              val := (encode i).getLsbD 2, csm := (encode i).extractLsb' 0 2, expbytes := s.expbytes
              rdto := s.rdto, cp := s.cp, vpfxen := s.vpfxen, vsuben := s.vsuben }
          attempt := 1, lastErr := .none, t0 := s.now, busy := true
          ok := false, errkind := .none, succkind := .none, elapsed := 0, attempts := 0
          tlen := 0, expn := 0, gotn := 0, tpReq := true
          evt := s.evt ++ [⟨s.now, .attemptStart 1⟩], st := .opening } ∧
      t.natt.toNat = max 1 s.cp.retries.toNat ∧ presentedParams t =
        some
          { tpid := s.cp.tpid, baud := s.cp.baud, dbits := s.cp.dbits, parity := s.cp.parity
            sbits := s.cp.sbits, flow := s.cp.flow, rdto := s.cp.rdto, wrto := s.cp.wrto } ∧
      FrameLayout (payloadBytes s) ((encode i).getLsbD 3) m (frameBytes t) ∧
      ∀ j, t.flen ≤ j → readCell t .frame j = readCell s .frame j

/-- A legal `XCHG` without a configuration raises `CFGMISS`, clears `CMDERR` and `DONE`, and writes no outcome (R282). -/
def Obligations.XchgWithoutConfiguration : Prop :=
  ∀ (i : Instr) (s : State), isExchange i = true → i.wellFormed = true →
    s.busy = false → s.expbytes.toNat ≤ tmax → s.cp.valid = false →
    exec i s = .next { s with cmd := encode i, done := false, cmderr := false, cfgmiss := true }

/-- Every instruction in every state, and every step, ends in a next state: nothing stops the block (R14). -/
def Obligations.EveryStepCompletes : Prop :=
  (∀ (i : Instr) (s : State), ∃ t, exec i s = .next t) ∧ ∀ s : State, ∃ t, step s = .next t

/-! ## The engine, row by row -/

/-- Rows T1 and T2: the transport's answer is taken in `OPENING`; without one the engine has no step (R166, R167). -/
def Obligations.OpenAnswerIsTaken : Prop :=
  ∀ s : State, s.resetHeld = false → s.st = .opening →
    (s.tpAns = some .grant → ∃ t, s.turn .engine = .next t ∧ { t with txValid := s.txValid } =
      { s with tpAns := none, owned := true, evt := s.evt ++ [⟨s.now, .openOk⟩], st := .purge }) ∧
    (s.tpAns = some .fail → ∃ t, s.turn .engine = .next t ∧ { t with txValid := s.txValid } =
      { s with
        tpAns := none, lastErr := .transportUnavailable, st := .failed
        evt := s.evt ++ [⟨s.now, .openFail⟩, ⟨s.now, .attemptFail .transportUnavailable .none⟩] }) ∧
    (s.tpAns = none → s.turn .engine = .next s)

/-- Rows T5 to T7: the purge with the start of the control pulse, the end of the pulse, the end of the settle delay (R168, R169,
R170). -/
def Obligations.PurgePulseSettle : Prop :=
  ∀ s : State, s.resetHeld = false → s.tpFault = false →
    (s.st = .purge → ∃ t, s.turn .engine = .next t ∧ { t with txValid := s.txValid } =
      { s with
        rxq := [], rxovr := false, tlen := 0, ctlLine := !s.ctlLine, dl := s.now + s.cfg.tCtl, st := .ctl
        evt := s.evt ++ [⟨s.now, .purge⟩, ⟨s.now, .ctlToggle⟩] }) ∧
    (s.st = .ctl → s.dl ≤ s.now → ∃ t, s.turn .engine = .next t ∧ { t with txValid := s.txValid } =
      { s with ctlLine := !s.ctlLine, dl := s.now + s.cfg.tSettle, st := .settle }) ∧
    (s.st = .settle → s.dl ≤ s.now → ∃ t, s.turn .engine = .next t ∧ { t with txValid := s.txValid } =
      { s with txi := 0, dl := s.now + s.l.cp.wrto, st := .tx })

/-- Rows T9 and T10: with a frame byte left and the transmitter ready the byte at `TXI` is handed over and the write deadline
restarts; not ready at the deadline, the attempt fails (R171, R173). -/
def Obligations.TransmitByteOrTimeOut : Prop :=
  ∀ s : State, s.resetHeld = false → s.st = .tx → s.tpFault = false → s.txi < s.flen →
    (s.txReady = true → ∃ t, s.turn .engine = .next t ∧ t.txValid = true ∧ { t with txValid := s.txValid } =
      { s with
        txByte := readCell s .frame s.txi, txStream := s.txStream ++ [readCell s .frame s.txi]
        txi := s.txi + 1, dl := s.now + s.l.cp.wrto, evt := s.evt ++ [⟨s.now, .tx (readCell s .frame s.txi)⟩] }) ∧
    (s.txReady = false → s.dl ≤ s.now → ∃ t, s.turn .engine = .next t ∧ { t with txValid := s.txValid } =
      { s with
        lastErr := .transportFault, st := .failed
        evt := s.evt ++ [⟨s.now, .attemptFail .transportFault .writeTimeout⟩] })

/-- Row T8: with the whole frame sent, an expected handshake is waited for, a fire-and-forget attempt succeeds, and else the
read phase is entered (R172, R176, R180). -/
def Obligations.DispatchAfterTransmission : Prop :=
  ∀ s : State, s.resetHeld = false → s.st = .tx → s.tpFault = false → s.txi = s.flen →
    (s.l.ack = true → ∃ t, s.turn .engine = .next t ∧ { t with txValid := s.txValid } =
      { s with
        dl := s.now + (if s.l.cp.rdto ≤ s.cfg.tAckMax then s.l.cp.rdto else s.cfg.tAckMax), st := .ackwait
        evt := s.evt ++ [⟨s.now, .txDone s.flen⟩] }) ∧
    (s.l.ack = false → s.l.expbytes = 0 → ∃ t, s.turn .engine = .next t ∧ { t with txValid := s.txValid } =
      { s with st := .release, evt := s.evt ++ [⟨s.now, .txDone s.flen⟩] }) ∧
    (s.l.ack = false → s.l.expbytes ≠ 0 → ∃ t, s.turn .engine = .next t ∧ { t with txValid := s.txValid } =
      { s with
        dl := s.now + s.l.rdto, st := if s.tlen = s.l.expbytes.toNat then .release else .rdCount
        evt := s.evt ++ [⟨s.now, .txDone s.flen⟩, ⟨s.now, .readStart .count (s.now + s.l.rdto)⟩] })

/-- `enter_read()` starts the overall timeout and enters the read state of the latched descriptor, or ends a read that the trace
already completes (R176, R186, R187). -/
def Obligations.EnterReadSelectsState : Prop :=
  ∀ s : State,
    (s.l.expbytes ≠ 0 → enterRead s =
      { s with
        dl := s.now + s.l.rdto, st := if s.tlen = s.l.expbytes.toNat then .release else .rdCount
        evt := s.evt ++ [⟨s.now, .readStart .count (s.now + s.l.rdto)⟩] }) ∧
    (s.l.expbytes = 0 → s.l.wrap = true → enterRead s =
      { s with
        dl := s.now + s.l.rdto
        st := if 0 < s.tlen ∧ readCell s .trace (s.tlen - 1) = endByte then .release else .rdDelim
        evt := s.evt ++ [⟨s.now, .readStart .delim (s.now + s.l.rdto)⟩] }) ∧
    (s.l.expbytes = 0 → s.l.wrap = false → enterRead s =
      { s with
        dl := s.now + s.l.rdto, st := .rdBurst
        evt := s.evt ++ [⟨s.now, .readStart .burst (s.now + s.l.rdto)⟩] })

/-- Rows T3 and T4 come first: a pending fault, and in the reading states an overrun, fail the attempt whatever else holds, and
no byte is popped (R174, R262, R290). -/
def Obligations.FaultAndOverrunComeFirst : Prop :=
  ∀ s : State, s.resetHeld = false →
    (s.st.faultVisible = true → s.tpFault = true →
      ∃ t, s.turn .engine = .next t ∧ { t with txValid := s.txValid } =
        { s with
          tpFault := false, lastErr := .transportFault, st := .failed
          evt := s.evt ++ [⟨s.now, .attemptFail .transportFault .ioFault⟩] }) ∧
    (s.st.reading = true → s.tpFault = false → s.rxovr = true →
      ∃ t, s.turn .engine = .next t ∧ { t with txValid := s.txValid } =
        { s with
          lastErr := .transportFault, st := .failed
          evt := s.evt ++ [⟨s.now, .attemptFail .transportFault .rxOverrun⟩] })

/-- Rows T11 to T14: NAK rejects, ACK proceeds and is not kept, any other byte is the first byte of the response, and silence until
the deadline times out (R181 to R185). -/
def Obligations.HandshakeByte : Prop :=
  ∀ s : State, s.resetHeld = false → s.st = .ackwait → s.tpFault = false → s.rxovr = false →
    (∀ rest, s.rxq = nakByte :: rest → ∃ t, s.turn .engine = .next t ∧ { t with txValid := s.txValid } =
      { s with
        rxq := rest, lastErr := .handshakeRejected, st := .failed
        evt := s.evt ++ [⟨s.now, .nak⟩, ⟨s.now, .attemptFail .handshakeRejected .none⟩] }) ∧
    (∀ rest, s.rxq = ackByte :: rest → ∃ t, s.turn .engine = .next t ∧ { t with txValid := s.txValid } =
      { s with
        rxq := rest, dl := s.now + s.l.rdto, st := readEntryState s
        evt := s.evt ++ [⟨s.now, .ackOk⟩, ⟨s.now, .readStart (readMode s.l) (s.now + s.l.rdto)⟩] }) ∧
    (∀ b rest, s.rxq = b :: rest → b ≠ nakByte → b ≠ ackByte → s.tlen < tmax →
      ∃ t, s.turn .engine = .next t ∧ { t with txValid := s.txValid, trace := s.trace } =
        { s with
          rxq := rest, tlen := s.tlen + 1, dl := s.now + s.l.rdto
          st :=
            if s.l.expbytes ≠ 0 then (if s.tlen + 1 = s.l.expbytes.toNat then .release else .rdCount)
            else if s.l.wrap = true then (if b = endByte then .release else .rdDelim)
            else .rdBurst
          evt := s.evt ++
            [⟨s.now, .ackFallthrough b⟩, ⟨s.now, .readStart (readMode s.l) (s.now + s.l.rdto)⟩] } ∧
        traceBytes t = traceBytes s ++ [b] ∧ ∀ i, i ≠ s.tlen → readCell t .trace i = readCell s .trace i) ∧
    (s.rxq = [] → s.dl ≤ s.now → ∃ t, s.turn .engine = .next t ∧ { t with txValid := s.txValid } =
      { s with
        lastErr := .handshakeTimeout, st := .failed
        evt := s.evt ++ [⟨s.now, .ackTimeout⟩, ⟨s.now, .attemptFail .handshakeTimeout .none⟩] })

/-- Rows T15 and T16: a counted read takes one queued byte per step and ends at the count; an empty queue at the deadline is a
short read, which purges and fails with both counts (R189, R191, R192). -/
def Obligations.CountedRead : Prop :=
  ∀ s : State, s.resetHeld = false → s.st = .rdCount → s.tpFault = false → s.rxovr = false →
    (∀ b rest, s.rxq = b :: rest → s.tlen < tmax →
      ∃ t, s.turn .engine = .next t ∧ { t with txValid := s.txValid, trace := s.trace } =
        { s with
          rxq := rest, tlen := s.tlen + 1, evt := s.evt ++ [⟨s.now, .rx b⟩]
          st := if s.tlen + 1 = s.l.expbytes.toNat then .release else .rdCount } ∧
        traceBytes t = traceBytes s ++ [b] ∧ ∀ i, i ≠ s.tlen → readCell t .trace i = readCell s .trace i) ∧
    (s.rxq = [] → s.dl ≤ s.now → ∃ t, s.turn .engine = .next t ∧ { t with txValid := s.txValid } =
      { s with
        expn := s.l.expbytes, gotn := s.tlen, lastErr := .readTimeout, st := .failed
        evt := s.evt ++ [⟨s.now, .shortRead s.l.expbytes s.tlen⟩, ⟨s.now, .purge⟩,
          ⟨s.now, .attemptFail .readTimeout (.counts s.l.expbytes s.tlen)⟩] })

/-- Rows T17 and T18: a delimiter read keeps every byte, ends at the first 0x03, and at the deadline succeeds or, with the switch
set, fails (R193, R194). -/
def Obligations.DelimiterRead : Prop :=
  ∀ s : State, s.resetHeld = false → s.st = .rdDelim → s.tpFault = false → s.rxovr = false →
    (∀ b rest, s.rxq = b :: rest → s.tlen < tmax →
      ∃ t, s.turn .engine = .next t ∧ { t with txValid := s.txValid, trace := s.trace } =
        { s with
          rxq := rest, tlen := s.tlen + 1, evt := s.evt ++ [⟨s.now, .rx b⟩]
          st := if b = 0x03 then .release else .rdDelim } ∧
        traceBytes t = traceBytes s ++ [b] ∧ ∀ i, i ≠ s.tlen → readCell t .trace i = readCell s .trace i) ∧
    (s.rxq = [] → s.dl ≤ s.now → s.cfg.delimTimeoutFails = false →
      ∃ t, s.turn .engine = .next t ∧ { t with txValid := s.txValid } =
        { s with st := .release, evt := s.evt ++ [⟨s.now, .readDeadline⟩] }) ∧
    (s.rxq = [] → s.dl ≤ s.now → s.cfg.delimTimeoutFails = true →
      ∃ t, s.turn .engine = .next t ∧ { t with txValid := s.txValid } =
        { s with
          expn := 0, gotn := s.tlen, lastErr := .readTimeout, st := .failed
          evt := s.evt ++ [⟨s.now, .readDeadline⟩, ⟨s.now, .attemptFail .readTimeout (.counts 0 s.tlen)⟩] })

/-- Rows T19 to T22: a burst read drains the queue, waits a quiet period cut at the overall deadline, loops, and ends in success at
that deadline, or after a quiet period with the switch set (R197). -/
def Obligations.BurstRead : Prop :=
  ∀ s : State, s.resetHeld = false → s.tpFault = false → s.rxovr = false →
    (∀ b rest, s.st = .rdBurst → s.rxq = b :: rest → s.tlen < tmax →
      ∃ t, s.turn .engine = .next t ∧ { t with txValid := s.txValid, trace := s.trace } =
        { s with rxq := rest, tlen := s.tlen + 1, evt := s.evt ++ [⟨s.now, .rx b⟩] } ∧
        traceBytes t = traceBytes s ++ [b] ∧ ∀ i, i ≠ s.tlen → readCell t .trace i = readCell s .trace i) ∧
    (s.st = .rdBurst → s.rxq = [] → s.dl ≤ s.now →
      ∃ t, s.turn .engine = .next t ∧ { t with txValid := s.txValid } =
        { s with st := .release, evt := s.evt ++ [⟨s.now, .readDeadline⟩] }) ∧
    (s.st = .rdBurst → s.rxq = [] → s.now < s.dl →
      ∃ t, s.turn .engine = .next t ∧ { t with txValid := s.txValid } =
        { s with qdl := if s.now + s.cfg.tQuiet ≤ s.dl then s.now + s.cfg.tQuiet else s.dl, st := .rdQuiet }) ∧
    (s.st = .rdQuiet → s.qdl ≤ s.now → s.cfg.burstStopOnQuiet = true ∧ 0 < s.tlen ∧ s.rxq = [] →
      ∃ t, s.turn .engine = .next t ∧ { t with txValid := s.txValid } =
        { s with st := .release, evt := s.evt ++ [⟨s.now, .quietStop⟩] }) ∧
    (s.st = .rdQuiet → s.qdl ≤ s.now → ¬ (s.cfg.burstStopOnQuiet = true ∧ 0 < s.tlen ∧ s.rxq = []) →
      ∃ t, s.turn .engine = .next t ∧ { t with txValid := s.txValid } = { s with st := .rdBurst })

/-- With the trace full, a byte that would be kept is taken from the queue, not stored, and fails the attempt (R161, R290). -/
def Obligations.TraceOverflowRaises : Prop :=
  ∀ (s : State) (b : Byte) (rest : List Byte), s.resetHeld = false → s.tpFault = false → s.rxovr = false →
    s.tlen = tmax →
    s.rxq = b :: rest →
    s.st = .rdCount ∨ s.st = .rdDelim ∨ s.st = .rdBurst ∨ (s.st = .ackwait ∧ b ≠ nakByte ∧ b ≠ ackByte) →
    ∃ t, s.turn .engine = .next t ∧ { t with txValid := s.txValid } =
      { s with
        rxq := rest, lastErr := .transportFault, st := .failed
        evt := s.evt ++ [⟨s.now, .attemptFail .transportFault .traceOverflow⟩] }

/-- Row T24: the successful attempt gives up the transport and writes the outcome; with `VAL` set and a check that fails the outcome
is not ok, with no retry (R199, R200, R225, R226). -/
def Obligations.ReleaseWritesOutcome : Prop :=
  ∀ s : State, s.resetHeld = false → s.st = .release →
    (s.l.val = false ∨ validationPasses s → ∃ t, s.turn .engine = .next t ∧ { t with txValid := s.txValid } =
      { s with
        tpReq := false, owned := false, ok := true, errkind := .none
        succkind :=
          if s.l.ack = false ∧ s.l.expbytes = 0 then .sentOnly
          else if s.l.ack = true ∧ s.tlen = 0 then .handshakeOnly
          else .data
        elapsed := s.now - s.t0, attempts := s.attempt, busy := false, done := true, st := .closed
        evt := s.evt ++ releaseEntries s ++ [⟨s.now, .done true .none⟩] }) ∧
    (s.l.val = true → ¬ validationPasses s → ∃ t, s.turn .engine = .next t ∧ { t with txValid := s.txValid } =
      { s with
        tpReq := false, owned := false, ok := false, errkind := .validationMismatch, succkind := .none
        elapsed := s.now - s.t0, attempts := s.attempt, busy := false, done := true, st := .closed
        evt := s.evt ++ releaseEntries s ++
          [⟨s.now, .validationMismatch⟩, ⟨s.now, .done false .validationMismatch⟩] })

/-- Row T23, the return from a failed attempt: the transport is given up and the control line idles; with budget left the next
attempt starts at once, else the not-ok outcome carries the last error (R271). -/
def Obligations.FailedRetriesOrFinishes : Prop :=
  ∀ s : State, s.resetHeld = false → s.st = .failed →
    (s.attempt.toNat < s.natt.toNat → ∃ t, s.turn .engine = .next t ∧ { t with txValid := s.txValid } =
      { s with
        owned := false, ctlLine := false, attempt := s.attempt + 1
        tlen := 0, expn := 0, gotn := 0, tpReq := true, st := .opening
        evt := s.evt ++ releaseEntries s ++ [⟨s.now, .attemptStart (s.attempt + 1)⟩] }) ∧
    (s.natt.toNat ≤ s.attempt.toNat → ∃ t, s.turn .engine = .next t ∧ { t with txValid := s.txValid } =
      { s with
        tpReq := false, owned := false, ctlLine := false
        ok := false, errkind := s.lastErr, succkind := .none, elapsed := s.now - s.t0, attempts := s.attempt
        busy := false, done := true, st := .closed
        evt := s.evt ++ releaseEntries s ++ [⟨s.now, .done false s.lastErr⟩] })

/-- Where no row is enabled the engine has no step: `IDLE`, `CLOSED`, and every wait whose event has not come (R12, R203). -/
def Obligations.EngineWaits : Prop :=
  ∀ s : State, s.tpFault = false →
    (s.st = .idle ∨ s.st = .closed ∨ (s.st = .opening ∧ s.tpAns = none) ∨
      ((s.st = .ctl ∨ s.st = .settle) ∧ s.now < s.dl) ∨
      (s.st = .tx ∧ s.txi < s.flen ∧ s.txReady = false ∧ s.now < s.dl) ∨
      ((s.st = .ackwait ∨ s.st = .rdCount ∨ s.st = .rdDelim) ∧ s.rxovr = false ∧ s.rxq = [] ∧ s.now < s.dl) ∨
      (s.st = .rdQuiet ∧ s.rxovr = false ∧ s.now < s.qdl)) →
    s.turn .engine = .next s

/-! ## The environment and the host -/

/-- A pushed byte is appended to the queue, or into a full queue dropped with `RXOVR` raised, in any state of the engine (R43,
R290). -/
def Obligations.PushAppendsOrDrops : Prop :=
  ∀ (s : State) (b : Byte), s.resetHeld = false →
    (s.rxq.length < rxqDepth →
      s.turn (.rxPush b) = .next { s with rxq := s.rxq ++ [b], rxStream := s.rxStream ++ [b] }) ∧
    (rxqDepth ≤ s.rxq.length →
      s.turn (.rxPush b) = .next { s with rxovr := true, rxStream := s.rxStream ++ [b] })

/-- The transport's inputs have an effect only where R260 looks at them; elsewhere they are ignored and not remembered (R261). -/
def Obligations.TransportInputs : Prop :=
  ∀ s : State, s.resetHeld = false →
    (∀ a, s.st ≠ .opening → s.turn (.tpAnswer a) = .next s) ∧
    (∀ a, s.st = .opening → s.tpReq = true → s.owned = false → s.tpAns = none →
      s.turn (.tpAnswer a) = .next { s with tpAns := some a }) ∧
    (s.owned = false ∨ s.st = .failed ∨ s.st = .release → s.turn .tpFault = .next s) ∧
    (s.owned = true → s.st.faultVisible = true → s.turn .tpFault = .next { s with tpFault := true }) ∧
    (∀ level, s.turn (.txReady level) = .next { s with txReady := level })

/-- The reset values that R61 gives stand in the state after reset, and at once when the reset input is asserted in any state; the
time and the configuration are not reset (R61). -/
def Obligations.ResetValues : Prop :=
  resetValuesHold State.reset ∧
  ∀ s : State, s.resetHeld = false → ∃ t, s.turn (.reset true) = .next t ∧
    resetValuesHold t ∧ t.now = s.now ∧ t.cfg = s.cfg ∧ t.resetHeld = true

/-- While the reset input is asserted no move of any agent changes a value that R61 gives, and only the release ends it; at the
release every value stands, the clock goes on, and after reset the engine has no step (R300; the held level as moves of the script
is log 21's). -/
def Obligations.HeldResetKeepsValues : Prop :=
  (∀ s t : State, s.resetHeld = true → resetValuesHold s → step s = .next t →
    resetValuesHold t ∧ t.cfg = s.cfg ∧
    (t.resetHeld = true ∨ ∃ rest, s.script = .act (.reset false) :: rest)) ∧
  (∀ s : State, s.turn (.reset false) = .next { s with resetHeld := false }) ∧
  (∀ s : State, s.turn .tick = .next { s with now := s.now + 1 }) ∧
  (∀ s : State, resetValuesHold s → s.turn .engine = .next s)

/-- A host write stores the low byte of a cell below the capacity and leaves the length, stores a length up to the capacity, sets
`CMDERR` out of range, stores any other descriptor register whole, and is lost without a flag while busy (R22, R62, R77, R283, R301).
That `FRAME`, `TRACE`, `VPFX` and `VSUB` also take the low byte of a wider value is the model's choice (log 20); R22 says it of
`PAYLOAD`. -/
def Obligations.HostWritesAreBounded : Prop :=
  ∀ s : State, s.resetHeld = false →
    (s.busy = true → ∀ w, s.turn (.hostWrite w) = .next s) ∧
    (s.busy = false → ∀ b i v, i < b.capacity →
      ∃ t, s.turn (.hostWrite (.cell b i v)) = .next t ∧ t.setBuf b (s.buf b) = s ∧
        (readCell t b i).toNat = v.toNat % 256 ∧ ∀ j, j ≠ i → readCell t b j = readCell s b j) ∧
    (s.busy = false → ∀ b i v, b.capacity ≤ i →
      s.turn (.hostWrite (.cell b i v)) = .next { s with cmderr := true }) ∧
    (s.busy = false → ∀ b n, n ≤ b.capacity →
      ∃ t, s.turn (.hostWrite (.len b n)) = .next t ∧ t.setLen b (s.len b) = s ∧ t.len b = n) ∧
    (s.busy = false → ∀ b n, b.capacity < n →
      s.turn (.hostWrite (.len b n)) = .next { s with cmderr := true }) ∧
    (s.busy = false →
      (∀ v, s.turn (.hostWrite (.expbytes v)) = .next { s with expbytes := v }) ∧
      (∀ v, s.turn (.hostWrite (.rdto v)) = .next { s with rdto := v }) ∧
      (∀ v, s.turn (.hostWrite (.cpValid v)) = .next { s with cp := { s.cp with valid := v } }) ∧
      (∀ v, s.turn (.hostWrite (.cpTpid v)) = .next { s with cp := { s.cp with tpid := v } }) ∧
      (∀ v, s.turn (.hostWrite (.cpBaud v)) = .next { s with cp := { s.cp with baud := v } }) ∧
      (∀ v, s.turn (.hostWrite (.cpDbits v)) = .next { s with cp := { s.cp with dbits := v } }) ∧
      (∀ v, s.turn (.hostWrite (.cpParity v)) = .next { s with cp := { s.cp with parity := v } }) ∧
      (∀ v, s.turn (.hostWrite (.cpSbits v)) = .next { s with cp := { s.cp with sbits := v } }) ∧
      (∀ v, s.turn (.hostWrite (.cpFlow v)) = .next { s with cp := { s.cp with flow := v } }) ∧
      (∀ v, s.turn (.hostWrite (.cpRdto v)) = .next { s with cp := { s.cp with rdto := v } }) ∧
      (∀ v, s.turn (.hostWrite (.cpWrto v)) = .next { s with cp := { s.cp with wrto := v } }) ∧
      (∀ v, s.turn (.hostWrite (.cpRetries v)) = .next { s with cp := { s.cp with retries := v } }) ∧
      (∀ v, s.turn (.hostWrite (.vpfxen v)) = .next { s with vpfxen := v }) ∧
      (∀ v, s.turn (.hostWrite (.vsuben v)) = .next { s with vsuben := v }))

/-- A host read changes nothing of the block; `CMD`, the flags but `OK`, `ST`, `ATTEMPT`, every descriptor register and the timing
registers read validly always, the results, `FRAME` and `TRACE` while the block is host-owned, cells below the length (R62, R77, R78).
The fields `rdata` and `freeCtr` are the model's (logs 9 and 10); that `OK` reads validly only while host-owned, and that `PAYLOAD`,
`VPFX` and `VSUB` read validly while busy, is the model's choice between R62 and R283 (log 9). -/
def Obligations.HostReadsAreValid : Prop :=
  ∀ (s : State) (r : HostReg), ∃ t, s.turn (.hostRead r) = .next t ∧
    { t with rdata := s.rdata, freeCtr := s.freeCtr } = s ∧
    (r = .cmd → t.rdata = s.cmd.toNat) ∧ (r = .expbytes → t.rdata = s.expbytes.toNat) ∧
    (r = .rdto → t.rdata = s.rdto.toNat) ∧ (r = .cpValid → t.rdata = s.cp.valid.toNat) ∧
    (r = .cpTpid → t.rdata = s.cp.tpid) ∧ (r = .cpBaud → t.rdata = s.cp.baud) ∧
    (r = .cpDbits → t.rdata = s.cp.dbits) ∧ (r = .cpParity → t.rdata = s.cp.parity) ∧
    (r = .cpSbits → t.rdata = s.cp.sbits) ∧ (r = .cpFlow → t.rdata = s.cp.flow) ∧
    (r = .cpRdto → t.rdata = s.cp.rdto.toNat) ∧ (r = .cpWrto → t.rdata = s.cp.wrto.toNat) ∧
    (r = .cpRetries → t.rdata = s.cp.retries.toNat) ∧
    (r = .vpfxen → t.rdata = s.vpfxen.toNat) ∧ (r = .vsuben → t.rdata = s.vsuben.toNat) ∧
    (r = .tAckMax → t.rdata = s.cfg.tAckMax.toNat) ∧ (r = .tQuiet → t.rdata = s.cfg.tQuiet.toNat) ∧
    (r = .tSettle → t.rdata = s.cfg.tSettle.toNat) ∧ (r = .tCtl → t.rdata = s.cfg.tCtl.toNat) ∧
    (r = .burstStopOnQuiet → t.rdata = s.cfg.burstStopOnQuiet.toNat) ∧
    (r = .delimTimeoutFails → t.rdata = s.cfg.delimTimeoutFails.toNat) ∧
    (r = .st → t.rdata = s.st.code) ∧ (r = .attempt → t.rdata = s.attempt.toNat) ∧
    (r = .busy → t.rdata = s.busy.toNat) ∧ (r = .done → t.rdata = s.done.toNat) ∧
    (r = .cmderr → t.rdata = s.cmderr.toNat) ∧ (r = .cfgmiss → t.rdata = s.cfgmiss.toNat) ∧
    (r = .owned → t.rdata = s.owned.toNat) ∧ (r = .rxovr → t.rdata = s.rxovr.toNat) ∧
    (s.busy = false →
      (r = .ok → t.rdata = s.ok.toNat) ∧ (r = .errkind → t.rdata = s.errkind.code) ∧
      (r = .succkind → t.rdata = s.succkind.code) ∧ (r = .elapsed → t.rdata = s.elapsed.toNat) ∧
      (r = .attempts → t.rdata = s.attempts.toNat) ∧ (r = .expn → t.rdata = s.expn.toNat) ∧
      (r = .gotn → t.rdata = s.gotn) ∧ (r = .ck → t.rdata = s.ck.toNat) ∧
      (r = .derr → t.rdata = s.derr.code) ∧ (r = .vres → t.rdata = s.vres.toNat)) ∧
    ∀ b, s.busy = false ∨ (b ≠ .frame ∧ b ≠ .trace) →
      (r = .len b → t.rdata = s.len b) ∧
      ∀ i, r = .cell b i → i < s.len b → t.rdata = (readCell s b i).toNat

/-! ## Invariants that every step keeps -/

/-- The state after reset meets every invariant stated below. -/
def Obligations.ResetMeetsInvariants : Prop :=
  BufferInv State.reset ∧ OwnershipInv State.reset ∧ EngineInv State.reset ∧ OutcomeInv State.reset ∧
  openBalance State.reset ∧ attemptsSinceDone State.reset.evt = 0 ∧
  receivedInOrder State.reset ∧ sentInOrder State.reset

/-- Every step keeps every buffer canonical and within its capacity, every length register within its capacity, and the queue
within its depth (R7, R43, R70, R77, R115). -/
def Obligations.BuffersStayInBounds : Prop :=
  ∀ s t : State, BufferInv s → step s = .next t → BufferInv t

/-- Every step keeps the phases of ownership: `BUSY`, `tp_req`, `OWNED`, `CTL_LINE` and the pending inputs follow the engine state
(R204, R260, R283, R285). -/
def Obligations.OwnershipFollowsEngineState : Prop :=
  ∀ s t : State, OwnershipInv s → step s = .next t → OwnershipInv t

/-- Every step keeps the attempt number within the budget, the latched descriptor legal and fitting the engine state, and the
trace length fitting it too (R36, R38, R163, R168, R176, R199). -/
def Obligations.EngineCountersStayConsistent : Prop :=
  ∀ s t : State, OwnershipInv s → EngineInv s → step s = .next t → EngineInv t

/-- Every step keeps the outcome record consistent: ok has no error kind, not ok no success kind, in `CLOSED` exactly one of them
stands, and `ConfigurationMissing` never appears (R44, R199, R256, R282). -/
def Obligations.OutcomeStaysConsistent : Prop :=
  ∀ s t : State, OutcomeInv s → step s = .next t → OutcomeInv t

/-- Every step keeps the balance: each `OpenOk` has its `Release`, but for the transport owned now (R204, R285). -/
def Obligations.EveryOpenIsReleased : Prop :=
  ∀ s t : State, OwnershipInv s → openBalance s → step s = .next t → openBalance t

/-- Every step keeps the count: while an exchange runs, the `AttemptStart` events since the last `Done` are `ATTEMPT` many, and
otherwise there are none (R204). -/
def Obligations.AttemptsAreCounted : Prop :=
  ∀ s t : State, OwnershipInv s → EngineInv s →
    attemptsSinceDone s.evt = (if s.busy then s.attempt.toNat else 0) → step s = .next t →
    attemptsSinceDone t.evt = (if t.busy then t.attempt.toNat else 0)

/-- Every step keeps the order of both streams: trace then queue are a subsequence of the bytes received, and the frame bytes
sent in this attempt are the last bytes transmitted (R72, R73). -/
def Obligations.StreamsKeepOrder : Prop :=
  (∀ s t : State, OwnershipInv s → receivedInOrder s → step s = .next t → receivedInOrder t) ∧
  (∀ s t : State, OwnershipInv s → sentInOrder s → step s = .next t → sentInOrder t)

/-! ## Rules of the whole machine -/

/-- The engine reads the latched copies and never the live descriptor: changing the live registers and the payload changes no
step of the engine in any other way (R32, R88). -/
def Obligations.EngineReadsLatchedCopies : Prop :=
  ∀ d s : State, engineStep (State.withDescriptorOf d s) = (engineStep s).map (State.withDescriptorOf d)

/-- No step of the engine changes the descriptor, the frame, the latched copies, the configuration, the clock or a codec result
(R60, R205). -/
def Obligations.EngineLeavesOperands : Prop :=
  ∀ s t : State, engineStep s = some t →
    t.cmd = s.cmd ∧ t.payload = s.payload ∧ t.plen = s.plen ∧ t.expbytes = s.expbytes ∧ t.rdto = s.rdto ∧
    t.cp = s.cp ∧ t.vpfx = s.vpfx ∧ t.vplen = s.vplen ∧ t.vpfxen = s.vpfxen ∧ t.vsub = s.vsub ∧
    t.vslen = s.vslen ∧ t.vsuben = s.vsuben ∧ t.frame = s.frame ∧ t.flen = s.flen ∧ t.l = s.l ∧
    t.cfg = s.cfg ∧ t.natt = s.natt ∧ t.t0 = s.t0 ∧ t.now = s.now ∧ t.ck = s.ck ∧ t.derr = s.derr ∧
    t.vres = s.vres ∧ t.cmderr = s.cmderr ∧ t.cfgmiss = s.cfgmiss

/-- The engine-owned phase is entered only by an accepted `XCHG` and left only by the step that enters `CLOSED`, or by reset
(R283, R302). -/
def Obligations.OwnershipPhases : Prop :=
  ∀ s t : State, OwnershipInv s → step s = .next t →
    (s.busy = false → t.busy = true → s.resetHeld = false ∧ ∃ c rest, s.script = .command c :: rest ∧
      (c >>> 5).toNat = 3 ∧ c &&& 3 ≠ 3 ∧ s.cp.valid = true ∧ s.expbytes.toNat ≤ tmax) ∧
    (s.busy = true → t.busy = false →
      (∃ rest, s.script = .act (.reset true) :: rest) ∨
      (t.st = .closed ∧ t.done = true ∧ (s.st = .failed ∨ s.st = .release)))

/-- Time advances only by the clock, one millisecond a move, and the event log only grows but for reset (R48, R60). -/
def Obligations.ClockAndLog : Prop :=
  ∀ s t : State, step s = .next t →
    (t.now = s.now ∨
      (t.now = s.now + 1 ∧ t = { s with script := t.script, now := s.now + 1 } ∧
        (s.script = [] ∨ ∃ rest, s.script = .act .tick :: rest))) ∧
    ((∀ rest, s.script ≠ .act (.reset true) :: rest) → s.evt <+: t.evt)

/-! ## Runs -/

/-- Fire-and-forget runs to `CLOSED`: with a transport that grants the open and a ready transmitter, and no wrap of `now`, the whole
frame goes out once, in order, and the outcome is ok, sent only, after one attempt (R177, R227, Scenario A). The schedule after
the script is the reference one (log 2). -/
def Obligations.FireAndForgetRunsToClosed : Prop :=
  ∀ (s : State) (wrap val : Bool) (m : ChecksumMode), OwnershipInv s → s.resetHeld = false →
    s.busy = false → s.expbytes = 0 →
    s.cp.valid = true →
    (val = true → (s.vpfxen = true → s.vplen = 0) ∧ (s.vsuben = true → s.vslen = 0)) →
    s.now.toNat + s.cfg.tCtl.toNat + s.cfg.tSettle.toNat < 2 ^ 32 →
    s.script =
      [.command (encode (.xchgFF wrap val (csmOfMode m))), .act (.txReady true), .act (.tpAnswer .grant)] →
    ∃ (k : Nat) (t : State) (f : List Byte), Host.Core.run Sys2Proof.core k s = .next t ∧
      FrameLayout (payloadBytes s) wrap m f ∧ t.txStream = s.txStream ++ f ∧ t.st = .closed ∧ t.busy = false ∧
      t.ok = true ∧ t.errkind = .none ∧ t.succkind = .sentOnly ∧ t.attempts = 1 ∧ t.tlen = 0 ∧
      t.owned = false ∧ t.elapsed = s.cfg.tCtl + s.cfg.tSettle

/-- A silent device times the handshake out: from `ACKWAIT` with nothing queued the reference schedule reaches `FAILED` at the
deadline, the attempt's error being `HandshakeTimeout` (R185; log 2). -/
def Obligations.SilentHandshakeTimesOut : Prop :=
  ∀ s : State, s.resetHeld = false → s.st = .ackwait → s.script = [] → s.rxq = [] → s.rxovr = false →
    s.tpFault = false → s.now ≤ s.dl →
    ∃ (k : Nat) (t : State), Host.Core.run Sys2Proof.core k s = .next t ∧ t.st = .failed ∧
      t.lastErr = .handshakeTimeout ∧ t.now = s.dl ∧ t.tlen = s.tlen

/-! ## The command catalog -/

/-- The presets whose form is fixed give that form whatever the overrides; a wrapped probe with the handshake on and no count
seeks the delimiter; an unrecognized key, and under any key a value that has not the key's type or that its register cannot hold,
change nothing (R237, R238, R240, R241, R242; open values: log 24). -/
def Obligations.PresetForms : Prop :=
  (∀ (now : Timestamp) (a : ArgMap), ∃ csm,
    decode (presetSpec now .ackOnly a).expectBytes (frameSpecCommand (presetSpec now .ackOnly a) false) =
      .ok (.xchgAB false csm)) ∧
  (∀ (now : Timestamp) (a : ArgMap), ∃ wrap csm,
    decode (presetSpec now .sendOnly a).expectBytes (frameSpecCommand (presetSpec now .sendOnly a) false) =
      .ok (.xchgFF wrap false csm)) ∧
  (∀ (now : Timestamp) (a : ArgMap), argValue a .expectAck = some (.bool true) → argValue a .expectBytes = none →
    ∃ csm, decode (presetSpec now .probeW a).expectBytes (frameSpecCommand (presetSpec now .probeW a) false) =
      .ok (.xchgAD false csm)) ∧
  (∀ (now : Timestamp) (p : Preset) (a : ArgMap) (name : String) (v : ArgValue),
    presetSpec now p ((.other name, v) :: a) = presetSpec now p a) ∧
  (∀ (now : Timestamp) (p : Preset) (a : ArgMap) (k : ArgKey) (v : ArgValue), ¬ k.accepts v → argValue a k = none →
    presetSpec now p ((k, v) :: a) = presetSpec now p a)

/-- The host sequence of a Frame Spec loads the masked payload, its length, the count and the timeout, and the rest of the script
follows (R22, R236). -/
def Obligations.FrameSpecIsLoaded : Prop :=
  ∀ (s : State) (fs : FrameSpec) (rest : List Move), s.resetHeld = false → s.busy = false → fs.payload.length ≤ pmax →
    s.script = frameSpecWrites fs ++ rest →
    ∃ t, Host.Core.run Sys2Proof.core (fs.payload.length + 3) s = .next t ∧ t.script = rest ∧
      payloadBytes t = fs.payload.map (fun v => v.setWidth 8) ∧ t.plen = fs.payload.length ∧
      t.expbytes = fs.expectBytes ∧ t.rdto = fs.readTimeout ∧
      { t with script := s.script, payload := s.payload, plen := s.plen, expbytes := s.expbytes, rdto := s.rdto } = s
end

