-- ==== Sys2Proof/Laws/Memory.lean ====
section
/-! SUPPORT. The laws of buffer memory: a read after a write, what a write leaves alone, and that every memory operation keeps
the canonical form and the range of indices. -/

namespace Sys2Proof.Machine

/-! ### One cell -/

theorem lookup_store_same (m : Memory) (i : Nat) (v : Byte) : lookup (store m i v) i = some v := by
  induction m with
  | nil => simp [store, lookup]
  | cons c m ih =>
    obtain ⟨a, b⟩ := c
    by_cases h1 : i < a
    · simp [store, h1, lookup]
    · by_cases h2 : i = a
      · simp [store, h2, lookup]
      · simp [store, h1, h2, lookup, ih]

theorem lookup_store_other (m : Memory) {i j : Nat} (v : Byte) (h : j ≠ i) :
    lookup (store m i v) j = lookup m j := by
  induction m with
  | nil => simp [store, lookup, h]
  | cons c m ih =>
    obtain ⟨a, b⟩ := c
    by_cases h1 : i < a
    · simp [store, h1, lookup, h]
    · by_cases h2 : i = a
      · subst h2; simp [store, lookup, h]
      · simp [store, h1, h2, lookup, ih]

theorem lookup_store (m : Memory) (i j : Nat) (v : Byte) :
    lookup (store m i v) j = if j = i then some v else lookup m j := by
  by_cases h : j = i
  · subst h; simp [lookup_store_same]
  · simp [h, lookup_store_other m v h]

theorem mem_store (m : Memory) (i : Nat) (v : Byte) :
    ∀ c ∈ store m i v, c = (i, v) ∨ c ∈ m := by
  induction m with
  | nil => simp [store]
  | cons d m ih =>
    obtain ⟨a, b⟩ := d
    intro c hc
    by_cases h1 : i < a
    · simpa [store, h1] using hc
    · by_cases h2 : i = a
      · simp only [store, h2, if_true, if_false, lt_irrefl, List.mem_cons] at hc ⊢
        tauto
      · simp only [store, h1, h2, if_false, List.mem_cons] at hc ⊢
        rcases hc with hc | hc
        · tauto
        · rcases ih c hc with h | h <;> tauto

theorem Memory.wf_cons (a : Nat) (b : Byte) (m : Memory) :
    Memory.wf ((a, b) :: m) = true ↔ (∀ c ∈ m, a < c.1) ∧ Memory.wf m = true := by
  simp [Memory.wf]

/-- A write keeps the canonical form. -/
theorem store_wf (m : Memory) (i : Nat) (v : Byte) (h : m.wf = true) : (store m i v).wf = true := by
  induction m with
  | nil => simp [store, Memory.wf]
  | cons d m ih =>
    obtain ⟨a, b⟩ := d
    obtain ⟨hlt, hm⟩ := (Memory.wf_cons a b m).1 h
    by_cases h1 : i < a
    · simp only [store, h1, if_true]
      refine (Memory.wf_cons _ _ _).2 ⟨?_, h⟩
      intro c hc
      rcases List.mem_cons.1 hc with hc | hc
      · subst hc; exact h1
      · exact h1.trans (hlt c hc)
    · by_cases h2 : i = a
      · subst h2
        simp only [store, lt_irrefl, if_true, if_false]
        exact (Memory.wf_cons _ _ _).2 ⟨hlt, hm⟩
      · simp only [store, h1, h2, if_false]
        refine (Memory.wf_cons _ _ _).2 ⟨?_, ih hm⟩
        intro c hc
        rcases mem_store m i v c hc with hc | hc
        · subst hc; simp only; omega
        · exact hlt c hc

/-! ### Consecutive cells -/

theorem lookup_storeBytes (vs : List Byte) : ∀ (m : Memory) (i j : Nat),
    lookup (storeBytes m i vs) j = if i ≤ j ∧ j < i + vs.length then vs[j - i]? else lookup m j := by
  induction vs with
  | nil => intro m i j; simp only [storeBytes, List.length_nil]; rw [if_neg (by omega)]
  | cons v vs ih =>
    intro m i j
    simp only [storeBytes, ih, lookup_store, List.length_cons]
    by_cases h0 : j = i
    · subst h0
      rw [if_neg (by omega), if_pos (by omega)]
      simp
    · by_cases h1 : i + 1 ≤ j ∧ j < i + 1 + vs.length
      · rw [if_pos h1, if_pos (by omega)]
        have : j - i = (j - (i + 1)) + 1 := by omega
        rw [this, List.getElem?_cons_succ]
      · rw [if_neg h1, if_neg h0, if_neg (by omega)]

/-- Inside the written range a read gives the byte written. -/
theorem lookup_storeBytes_inside (m : Memory) (i j : Nat) (vs : List Byte) (h1 : i ≤ j) (h2 : j < i + vs.length) :
    lookup (storeBytes m i vs) j = vs[j - i]? := by
  rw [lookup_storeBytes, if_pos ⟨h1, h2⟩]

/-- Outside the written range nothing changes. -/
theorem lookup_storeBytes_outside (m : Memory) (i j : Nat) (vs : List Byte) (h : j < i ∨ i + vs.length ≤ j) :
    lookup (storeBytes m i vs) j = lookup m j := by
  rw [lookup_storeBytes, if_neg (by omega)]

theorem storeBytes_wf (vs : List Byte) : ∀ (m : Memory) (i : Nat), m.wf = true → (storeBytes m i vs).wf = true := by
  induction vs with
  | nil => intro m i h; exact h
  | cons v vs ih => intro m i h; exact ih _ _ (store_wf m i v h)

theorem mem_storeBytes (vs : List Byte) : ∀ (m : Memory) (i : Nat), ∀ c ∈ storeBytes m i vs,
    (i ≤ c.1 ∧ c.1 < i + vs.length) ∨ c ∈ m := by
  induction vs with
  | nil => intro m i c h; exact .inr h
  | cons v vs ih =>
    intro m i c h
    simp only [List.length_cons]
    rcases ih _ _ c h with h | h
    · left; omega
    · rcases mem_store m i v c h with h | h
      · subst h; left; simp
      · exact .inr h

/-! ### Reads of a state -/

/-- A cell reads the same when its buffer lists the same byte there and the epoch is the same. -/
theorem readCell_congr {s t : State} {b : Buf} {i : Nat} (he : t.epoch = s.epoch)
    (hl : lookup (t.buf b) i = lookup (s.buf b) i) : readCell t b i = readCell s b i := by
  simp only [readCell, he, hl]

theorem readCell_of_lookup {s : State} {b : Buf} {i : Nat} {v : Byte} (h : lookup (s.buf b) i = some v) :
    readCell s b i = v := by
  simp [readCell, h]

@[simp] theorem length_bytesOf (s : State) (b : Buf) (n : Nat) : (bytesOf s b n).length = n := by
  simp [bytesOf]

theorem getElem?_bytesOf (s : State) (b : Buf) (n i : Nat) (h : i < n) :
    (bytesOf s b n)[i]? = some (readCell s b i) := by
  simp [bytesOf, h]

theorem bytesOf_succ (s : State) (b : Buf) (n : Nat) :
    bytesOf s b (n + 1) = bytesOf s b n ++ [readCell s b n] := by
  simp [bytesOf, List.range_succ]

@[simp] theorem bytesOf_zero (s : State) (b : Buf) : bytesOf s b 0 = [] := rfl

theorem bytesOf_congr {s t : State} {b : Buf} {n : Nat} (h : ∀ i < n, readCell t b i = readCell s b i) :
    bytesOf t b n = bytesOf s b n := by
  simp only [bytesOf]
  exact List.map_congr_left (fun i hi => h i (List.mem_range.1 hi))

/-- After a byte sequence has been written from index 0, reading that many bytes gives it back. -/
theorem bytesOf_storeBytes (s : State) (b : Buf) (m : Memory) (vs : List Byte) (h : s.buf b = storeBytes m 0 vs) :
    bytesOf s b vs.length = vs := by
  apply List.ext_getElem?
  intro i
  by_cases hi : i < vs.length
  · rw [getElem?_bytesOf s b _ i hi, List.getElem?_eq_getElem hi]
    congr 1
    apply readCell_of_lookup
    rw [h, lookup_storeBytes_inside m 0 i vs (Nat.zero_le i) (by omega)]
    simp
  · rw [List.getElem?_eq_none (by simp; omega), List.getElem?_eq_none (by omega)]

end Sys2Proof.Machine
end

