-- ==== Sys2Proof/Laws/Codec.lean ====
section
/-! SUPPORT. The laws of the codec's pure functions: lengths, ranges, and the shape of a frame. -/

namespace Sys2Proof.Machine

theorem modeOfCsm_csmOfMode (m : ChecksumMode) : modeOfCsm (csmOfMode m) = some m := by
  cases m <;> rfl

theorem modeOfCsm_eq_none (csm : BitVec 2) : modeOfCsm csm = none ↔ csm = 3 := by
  revert csm; decide

@[simp] theorem length_maskP (p : List Int) : (maskP p).length = p.length := by
  simp [maskP]

/-- The checksum byte is present exactly when the mode is not `None` (R100, R134). -/
theorem length_csum (m : ChecksumMode) (p : List Byte) :
    (csum m p).toList.length = if m = .none then 0 else 1 := by
  cases m <;> rfl

/-- The frame length of R100. -/
theorem length_frameOf (p : List Byte) (wrap : Bool) (m : ChecksumMode) :
    (frameOf p wrap m).length = p.length + framingNeed wrap m := by
  cases wrap
  · simp [frameOf, framingNeed, length_csum]
  · simp [frameOf, framingNeed, length_csum]; omega

/-- A frame fits the FRAME buffer when its payload fits the PAYLOAD buffer (R115). -/
theorem length_frameOf_le (p : List Byte) (wrap : Bool) (m : ChecksumMode) (h : p.length ≤ pmax) :
    (frameOf p wrap m).length ≤ fmax := by
  have hn : framingNeed wrap m ≤ 3 := by cases wrap <;> cases m <;> decide
  rw [length_frameOf]
  simp only [pmax, fmax] at *
  omega

/-- The framing bytes that the command byte announces are those the decoder needs (R110, R139). -/
theorem framingBytes_eq (c : Byte) (m : ChecksumMode) (h : cmdCsm c = csmOfMode m) :
    framingBytes c = framingNeed (cmdWrap c) m := by
  cases m <;> simp [framingBytes, framingNeed, h, csmOfMode]

end Sys2Proof.Machine
end

