-- ==== Sys2Proof/Laws/State.lean ====
section
/-! SUPPORT. One lemma per field per named update of the state, each true by unfolding the update once. They let `simp` read a
field through an update without unfolding it anywhere else. -/

namespace Sys2Proof.Machine

/-! ### `State.setBuf` -/

@[simp] theorem State.setBuf_cmd (b : Buf) (m : Memory) (s : State) : (s.setBuf b m).cmd = s.cmd := rfl
@[simp] theorem State.setBuf_payload (b : Buf) (m : Memory) (s : State) : (s.setBuf b m).payload = if b = .payload then m else s.payload := rfl
@[simp] theorem State.setBuf_plen (b : Buf) (m : Memory) (s : State) : (s.setBuf b m).plen = s.plen := rfl
@[simp] theorem State.setBuf_expbytes (b : Buf) (m : Memory) (s : State) : (s.setBuf b m).expbytes = s.expbytes := rfl
@[simp] theorem State.setBuf_rdto (b : Buf) (m : Memory) (s : State) : (s.setBuf b m).rdto = s.rdto := rfl
@[simp] theorem State.setBuf_cp (b : Buf) (m : Memory) (s : State) : (s.setBuf b m).cp = s.cp := rfl
@[simp] theorem State.setBuf_vpfx (b : Buf) (m : Memory) (s : State) : (s.setBuf b m).vpfx = if b = .vpfx then m else s.vpfx := rfl
@[simp] theorem State.setBuf_vplen (b : Buf) (m : Memory) (s : State) : (s.setBuf b m).vplen = s.vplen := rfl
@[simp] theorem State.setBuf_vpfxen (b : Buf) (m : Memory) (s : State) : (s.setBuf b m).vpfxen = s.vpfxen := rfl
@[simp] theorem State.setBuf_vsub (b : Buf) (m : Memory) (s : State) : (s.setBuf b m).vsub = if b = .vsub then m else s.vsub := rfl
@[simp] theorem State.setBuf_vslen (b : Buf) (m : Memory) (s : State) : (s.setBuf b m).vslen = s.vslen := rfl
@[simp] theorem State.setBuf_vsuben (b : Buf) (m : Memory) (s : State) : (s.setBuf b m).vsuben = s.vsuben := rfl
@[simp] theorem State.setBuf_cfg (b : Buf) (m : Memory) (s : State) : (s.setBuf b m).cfg = s.cfg := rfl
@[simp] theorem State.setBuf_l (b : Buf) (m : Memory) (s : State) : (s.setBuf b m).l = s.l := rfl
@[simp] theorem State.setBuf_st (b : Buf) (m : Memory) (s : State) : (s.setBuf b m).st = s.st := rfl
@[simp] theorem State.setBuf_attempt (b : Buf) (m : Memory) (s : State) : (s.setBuf b m).attempt = s.attempt := rfl
@[simp] theorem State.setBuf_natt (b : Buf) (m : Memory) (s : State) : (s.setBuf b m).natt = s.natt := rfl
@[simp] theorem State.setBuf_lastErr (b : Buf) (m : Memory) (s : State) : (s.setBuf b m).lastErr = s.lastErr := rfl
@[simp] theorem State.setBuf_txi (b : Buf) (m : Memory) (s : State) : (s.setBuf b m).txi = s.txi := rfl
@[simp] theorem State.setBuf_t0 (b : Buf) (m : Memory) (s : State) : (s.setBuf b m).t0 = s.t0 := rfl
@[simp] theorem State.setBuf_dl (b : Buf) (m : Memory) (s : State) : (s.setBuf b m).dl = s.dl := rfl
@[simp] theorem State.setBuf_qdl (b : Buf) (m : Memory) (s : State) : (s.setBuf b m).qdl = s.qdl := rfl
@[simp] theorem State.setBuf_frame (b : Buf) (m : Memory) (s : State) : (s.setBuf b m).frame = if b = .frame then m else s.frame := rfl
@[simp] theorem State.setBuf_flen (b : Buf) (m : Memory) (s : State) : (s.setBuf b m).flen = s.flen := rfl
@[simp] theorem State.setBuf_trace (b : Buf) (m : Memory) (s : State) : (s.setBuf b m).trace = if b = .trace then m else s.trace := rfl
@[simp] theorem State.setBuf_tlen (b : Buf) (m : Memory) (s : State) : (s.setBuf b m).tlen = s.tlen := rfl
@[simp] theorem State.setBuf_rxq (b : Buf) (m : Memory) (s : State) : (s.setBuf b m).rxq = s.rxq := rfl
@[simp] theorem State.setBuf_ok (b : Buf) (m : Memory) (s : State) : (s.setBuf b m).ok = s.ok := rfl
@[simp] theorem State.setBuf_errkind (b : Buf) (m : Memory) (s : State) : (s.setBuf b m).errkind = s.errkind := rfl
@[simp] theorem State.setBuf_succkind (b : Buf) (m : Memory) (s : State) : (s.setBuf b m).succkind = s.succkind := rfl
@[simp] theorem State.setBuf_elapsed (b : Buf) (m : Memory) (s : State) : (s.setBuf b m).elapsed = s.elapsed := rfl
@[simp] theorem State.setBuf_attempts (b : Buf) (m : Memory) (s : State) : (s.setBuf b m).attempts = s.attempts := rfl
@[simp] theorem State.setBuf_expn (b : Buf) (m : Memory) (s : State) : (s.setBuf b m).expn = s.expn := rfl
@[simp] theorem State.setBuf_gotn (b : Buf) (m : Memory) (s : State) : (s.setBuf b m).gotn = s.gotn := rfl
@[simp] theorem State.setBuf_ck (b : Buf) (m : Memory) (s : State) : (s.setBuf b m).ck = s.ck := rfl
@[simp] theorem State.setBuf_derr (b : Buf) (m : Memory) (s : State) : (s.setBuf b m).derr = s.derr := rfl
@[simp] theorem State.setBuf_vres (b : Buf) (m : Memory) (s : State) : (s.setBuf b m).vres = s.vres := rfl
@[simp] theorem State.setBuf_busy (b : Buf) (m : Memory) (s : State) : (s.setBuf b m).busy = s.busy := rfl
@[simp] theorem State.setBuf_done (b : Buf) (m : Memory) (s : State) : (s.setBuf b m).done = s.done := rfl
@[simp] theorem State.setBuf_cmderr (b : Buf) (m : Memory) (s : State) : (s.setBuf b m).cmderr = s.cmderr := rfl
@[simp] theorem State.setBuf_cfgmiss (b : Buf) (m : Memory) (s : State) : (s.setBuf b m).cfgmiss = s.cfgmiss := rfl
@[simp] theorem State.setBuf_owned (b : Buf) (m : Memory) (s : State) : (s.setBuf b m).owned = s.owned := rfl
@[simp] theorem State.setBuf_rxovr (b : Buf) (m : Memory) (s : State) : (s.setBuf b m).rxovr = s.rxovr := rfl
@[simp] theorem State.setBuf_ctlLine (b : Buf) (m : Memory) (s : State) : (s.setBuf b m).ctlLine = s.ctlLine := rfl
@[simp] theorem State.setBuf_tpReq (b : Buf) (m : Memory) (s : State) : (s.setBuf b m).tpReq = s.tpReq := rfl
@[simp] theorem State.setBuf_txByte (b : Buf) (m : Memory) (s : State) : (s.setBuf b m).txByte = s.txByte := rfl
@[simp] theorem State.setBuf_txValid (b : Buf) (m : Memory) (s : State) : (s.setBuf b m).txValid = s.txValid := rfl
@[simp] theorem State.setBuf_evt (b : Buf) (m : Memory) (s : State) : (s.setBuf b m).evt = s.evt := rfl
@[simp] theorem State.setBuf_now (b : Buf) (m : Memory) (s : State) : (s.setBuf b m).now = s.now := rfl
@[simp] theorem State.setBuf_txReady (b : Buf) (m : Memory) (s : State) : (s.setBuf b m).txReady = s.txReady := rfl
@[simp] theorem State.setBuf_tpAns (b : Buf) (m : Memory) (s : State) : (s.setBuf b m).tpAns = s.tpAns := rfl
@[simp] theorem State.setBuf_tpFault (b : Buf) (m : Memory) (s : State) : (s.setBuf b m).tpFault = s.tpFault := rfl
@[simp] theorem State.setBuf_resetHeld (b : Buf) (m : Memory) (s : State) : (s.setBuf b m).resetHeld = s.resetHeld := rfl
@[simp] theorem State.setBuf_txStream (b : Buf) (m : Memory) (s : State) : (s.setBuf b m).txStream = s.txStream := rfl
@[simp] theorem State.setBuf_rxStream (b : Buf) (m : Memory) (s : State) : (s.setBuf b m).rxStream = s.rxStream := rfl
@[simp] theorem State.setBuf_script (b : Buf) (m : Memory) (s : State) : (s.setBuf b m).script = s.script := rfl
@[simp] theorem State.setBuf_rdata (b : Buf) (m : Memory) (s : State) : (s.setBuf b m).rdata = s.rdata := rfl
@[simp] theorem State.setBuf_freeCtr (b : Buf) (m : Memory) (s : State) : (s.setBuf b m).freeCtr = s.freeCtr := rfl
@[simp] theorem State.setBuf_epoch (b : Buf) (m : Memory) (s : State) : (s.setBuf b m).epoch = s.epoch := rfl

/-! ### `State.setLen` -/

@[simp] theorem State.setLen_cmd (b : Buf) (n : Nat) (s : State) : (s.setLen b n).cmd = s.cmd := rfl
@[simp] theorem State.setLen_payload (b : Buf) (n : Nat) (s : State) : (s.setLen b n).payload = s.payload := rfl
@[simp] theorem State.setLen_plen (b : Buf) (n : Nat) (s : State) : (s.setLen b n).plen = if b = .payload then n else s.plen := rfl
@[simp] theorem State.setLen_expbytes (b : Buf) (n : Nat) (s : State) : (s.setLen b n).expbytes = s.expbytes := rfl
@[simp] theorem State.setLen_rdto (b : Buf) (n : Nat) (s : State) : (s.setLen b n).rdto = s.rdto := rfl
@[simp] theorem State.setLen_cp (b : Buf) (n : Nat) (s : State) : (s.setLen b n).cp = s.cp := rfl
@[simp] theorem State.setLen_vpfx (b : Buf) (n : Nat) (s : State) : (s.setLen b n).vpfx = s.vpfx := rfl
@[simp] theorem State.setLen_vplen (b : Buf) (n : Nat) (s : State) : (s.setLen b n).vplen = if b = .vpfx then n else s.vplen := rfl
@[simp] theorem State.setLen_vpfxen (b : Buf) (n : Nat) (s : State) : (s.setLen b n).vpfxen = s.vpfxen := rfl
@[simp] theorem State.setLen_vsub (b : Buf) (n : Nat) (s : State) : (s.setLen b n).vsub = s.vsub := rfl
@[simp] theorem State.setLen_vslen (b : Buf) (n : Nat) (s : State) : (s.setLen b n).vslen = if b = .vsub then n else s.vslen := rfl
@[simp] theorem State.setLen_vsuben (b : Buf) (n : Nat) (s : State) : (s.setLen b n).vsuben = s.vsuben := rfl
@[simp] theorem State.setLen_cfg (b : Buf) (n : Nat) (s : State) : (s.setLen b n).cfg = s.cfg := rfl
@[simp] theorem State.setLen_l (b : Buf) (n : Nat) (s : State) : (s.setLen b n).l = s.l := rfl
@[simp] theorem State.setLen_st (b : Buf) (n : Nat) (s : State) : (s.setLen b n).st = s.st := rfl
@[simp] theorem State.setLen_attempt (b : Buf) (n : Nat) (s : State) : (s.setLen b n).attempt = s.attempt := rfl
@[simp] theorem State.setLen_natt (b : Buf) (n : Nat) (s : State) : (s.setLen b n).natt = s.natt := rfl
@[simp] theorem State.setLen_lastErr (b : Buf) (n : Nat) (s : State) : (s.setLen b n).lastErr = s.lastErr := rfl
@[simp] theorem State.setLen_txi (b : Buf) (n : Nat) (s : State) : (s.setLen b n).txi = s.txi := rfl
@[simp] theorem State.setLen_t0 (b : Buf) (n : Nat) (s : State) : (s.setLen b n).t0 = s.t0 := rfl
@[simp] theorem State.setLen_dl (b : Buf) (n : Nat) (s : State) : (s.setLen b n).dl = s.dl := rfl
@[simp] theorem State.setLen_qdl (b : Buf) (n : Nat) (s : State) : (s.setLen b n).qdl = s.qdl := rfl
@[simp] theorem State.setLen_frame (b : Buf) (n : Nat) (s : State) : (s.setLen b n).frame = s.frame := rfl
@[simp] theorem State.setLen_flen (b : Buf) (n : Nat) (s : State) : (s.setLen b n).flen = if b = .frame then n else s.flen := rfl
@[simp] theorem State.setLen_trace (b : Buf) (n : Nat) (s : State) : (s.setLen b n).trace = s.trace := rfl
@[simp] theorem State.setLen_tlen (b : Buf) (n : Nat) (s : State) : (s.setLen b n).tlen = if b = .trace then n else s.tlen := rfl
@[simp] theorem State.setLen_rxq (b : Buf) (n : Nat) (s : State) : (s.setLen b n).rxq = s.rxq := rfl
@[simp] theorem State.setLen_ok (b : Buf) (n : Nat) (s : State) : (s.setLen b n).ok = s.ok := rfl
@[simp] theorem State.setLen_errkind (b : Buf) (n : Nat) (s : State) : (s.setLen b n).errkind = s.errkind := rfl
@[simp] theorem State.setLen_succkind (b : Buf) (n : Nat) (s : State) : (s.setLen b n).succkind = s.succkind := rfl
@[simp] theorem State.setLen_elapsed (b : Buf) (n : Nat) (s : State) : (s.setLen b n).elapsed = s.elapsed := rfl
@[simp] theorem State.setLen_attempts (b : Buf) (n : Nat) (s : State) : (s.setLen b n).attempts = s.attempts := rfl
@[simp] theorem State.setLen_expn (b : Buf) (n : Nat) (s : State) : (s.setLen b n).expn = s.expn := rfl
@[simp] theorem State.setLen_gotn (b : Buf) (n : Nat) (s : State) : (s.setLen b n).gotn = s.gotn := rfl
@[simp] theorem State.setLen_ck (b : Buf) (n : Nat) (s : State) : (s.setLen b n).ck = s.ck := rfl
@[simp] theorem State.setLen_derr (b : Buf) (n : Nat) (s : State) : (s.setLen b n).derr = s.derr := rfl
@[simp] theorem State.setLen_vres (b : Buf) (n : Nat) (s : State) : (s.setLen b n).vres = s.vres := rfl
@[simp] theorem State.setLen_busy (b : Buf) (n : Nat) (s : State) : (s.setLen b n).busy = s.busy := rfl
@[simp] theorem State.setLen_done (b : Buf) (n : Nat) (s : State) : (s.setLen b n).done = s.done := rfl
@[simp] theorem State.setLen_cmderr (b : Buf) (n : Nat) (s : State) : (s.setLen b n).cmderr = s.cmderr := rfl
@[simp] theorem State.setLen_cfgmiss (b : Buf) (n : Nat) (s : State) : (s.setLen b n).cfgmiss = s.cfgmiss := rfl
@[simp] theorem State.setLen_owned (b : Buf) (n : Nat) (s : State) : (s.setLen b n).owned = s.owned := rfl
@[simp] theorem State.setLen_rxovr (b : Buf) (n : Nat) (s : State) : (s.setLen b n).rxovr = s.rxovr := rfl
@[simp] theorem State.setLen_ctlLine (b : Buf) (n : Nat) (s : State) : (s.setLen b n).ctlLine = s.ctlLine := rfl
@[simp] theorem State.setLen_tpReq (b : Buf) (n : Nat) (s : State) : (s.setLen b n).tpReq = s.tpReq := rfl
@[simp] theorem State.setLen_txByte (b : Buf) (n : Nat) (s : State) : (s.setLen b n).txByte = s.txByte := rfl
@[simp] theorem State.setLen_txValid (b : Buf) (n : Nat) (s : State) : (s.setLen b n).txValid = s.txValid := rfl
@[simp] theorem State.setLen_evt (b : Buf) (n : Nat) (s : State) : (s.setLen b n).evt = s.evt := rfl
@[simp] theorem State.setLen_now (b : Buf) (n : Nat) (s : State) : (s.setLen b n).now = s.now := rfl
@[simp] theorem State.setLen_txReady (b : Buf) (n : Nat) (s : State) : (s.setLen b n).txReady = s.txReady := rfl
@[simp] theorem State.setLen_tpAns (b : Buf) (n : Nat) (s : State) : (s.setLen b n).tpAns = s.tpAns := rfl
@[simp] theorem State.setLen_tpFault (b : Buf) (n : Nat) (s : State) : (s.setLen b n).tpFault = s.tpFault := rfl
@[simp] theorem State.setLen_resetHeld (b : Buf) (n : Nat) (s : State) : (s.setLen b n).resetHeld = s.resetHeld := rfl
@[simp] theorem State.setLen_txStream (b : Buf) (n : Nat) (s : State) : (s.setLen b n).txStream = s.txStream := rfl
@[simp] theorem State.setLen_rxStream (b : Buf) (n : Nat) (s : State) : (s.setLen b n).rxStream = s.rxStream := rfl
@[simp] theorem State.setLen_script (b : Buf) (n : Nat) (s : State) : (s.setLen b n).script = s.script := rfl
@[simp] theorem State.setLen_rdata (b : Buf) (n : Nat) (s : State) : (s.setLen b n).rdata = s.rdata := rfl
@[simp] theorem State.setLen_freeCtr (b : Buf) (n : Nat) (s : State) : (s.setLen b n).freeCtr = s.freeCtr := rfl
@[simp] theorem State.setLen_epoch (b : Buf) (n : Nat) (s : State) : (s.setLen b n).epoch = s.epoch := rfl

/-! ### `emit` -/

@[simp] theorem emit_cmd (e : Event) (s : State) : (emit e s).cmd = s.cmd := rfl
@[simp] theorem emit_payload (e : Event) (s : State) : (emit e s).payload = s.payload := rfl
@[simp] theorem emit_plen (e : Event) (s : State) : (emit e s).plen = s.plen := rfl
@[simp] theorem emit_expbytes (e : Event) (s : State) : (emit e s).expbytes = s.expbytes := rfl
@[simp] theorem emit_rdto (e : Event) (s : State) : (emit e s).rdto = s.rdto := rfl
@[simp] theorem emit_cp (e : Event) (s : State) : (emit e s).cp = s.cp := rfl
@[simp] theorem emit_vpfx (e : Event) (s : State) : (emit e s).vpfx = s.vpfx := rfl
@[simp] theorem emit_vplen (e : Event) (s : State) : (emit e s).vplen = s.vplen := rfl
@[simp] theorem emit_vpfxen (e : Event) (s : State) : (emit e s).vpfxen = s.vpfxen := rfl
@[simp] theorem emit_vsub (e : Event) (s : State) : (emit e s).vsub = s.vsub := rfl
@[simp] theorem emit_vslen (e : Event) (s : State) : (emit e s).vslen = s.vslen := rfl
@[simp] theorem emit_vsuben (e : Event) (s : State) : (emit e s).vsuben = s.vsuben := rfl
@[simp] theorem emit_cfg (e : Event) (s : State) : (emit e s).cfg = s.cfg := rfl
@[simp] theorem emit_l (e : Event) (s : State) : (emit e s).l = s.l := rfl
@[simp] theorem emit_st (e : Event) (s : State) : (emit e s).st = s.st := rfl
@[simp] theorem emit_attempt (e : Event) (s : State) : (emit e s).attempt = s.attempt := rfl
@[simp] theorem emit_natt (e : Event) (s : State) : (emit e s).natt = s.natt := rfl
@[simp] theorem emit_lastErr (e : Event) (s : State) : (emit e s).lastErr = s.lastErr := rfl
@[simp] theorem emit_txi (e : Event) (s : State) : (emit e s).txi = s.txi := rfl
@[simp] theorem emit_t0 (e : Event) (s : State) : (emit e s).t0 = s.t0 := rfl
@[simp] theorem emit_dl (e : Event) (s : State) : (emit e s).dl = s.dl := rfl
@[simp] theorem emit_qdl (e : Event) (s : State) : (emit e s).qdl = s.qdl := rfl
@[simp] theorem emit_frame (e : Event) (s : State) : (emit e s).frame = s.frame := rfl
@[simp] theorem emit_flen (e : Event) (s : State) : (emit e s).flen = s.flen := rfl
@[simp] theorem emit_trace (e : Event) (s : State) : (emit e s).trace = s.trace := rfl
@[simp] theorem emit_tlen (e : Event) (s : State) : (emit e s).tlen = s.tlen := rfl
@[simp] theorem emit_rxq (e : Event) (s : State) : (emit e s).rxq = s.rxq := rfl
@[simp] theorem emit_ok (e : Event) (s : State) : (emit e s).ok = s.ok := rfl
@[simp] theorem emit_errkind (e : Event) (s : State) : (emit e s).errkind = s.errkind := rfl
@[simp] theorem emit_succkind (e : Event) (s : State) : (emit e s).succkind = s.succkind := rfl
@[simp] theorem emit_elapsed (e : Event) (s : State) : (emit e s).elapsed = s.elapsed := rfl
@[simp] theorem emit_attempts (e : Event) (s : State) : (emit e s).attempts = s.attempts := rfl
@[simp] theorem emit_expn (e : Event) (s : State) : (emit e s).expn = s.expn := rfl
@[simp] theorem emit_gotn (e : Event) (s : State) : (emit e s).gotn = s.gotn := rfl
@[simp] theorem emit_ck (e : Event) (s : State) : (emit e s).ck = s.ck := rfl
@[simp] theorem emit_derr (e : Event) (s : State) : (emit e s).derr = s.derr := rfl
@[simp] theorem emit_vres (e : Event) (s : State) : (emit e s).vres = s.vres := rfl
@[simp] theorem emit_busy (e : Event) (s : State) : (emit e s).busy = s.busy := rfl
@[simp] theorem emit_done (e : Event) (s : State) : (emit e s).done = s.done := rfl
@[simp] theorem emit_cmderr (e : Event) (s : State) : (emit e s).cmderr = s.cmderr := rfl
@[simp] theorem emit_cfgmiss (e : Event) (s : State) : (emit e s).cfgmiss = s.cfgmiss := rfl
@[simp] theorem emit_owned (e : Event) (s : State) : (emit e s).owned = s.owned := rfl
@[simp] theorem emit_rxovr (e : Event) (s : State) : (emit e s).rxovr = s.rxovr := rfl
@[simp] theorem emit_ctlLine (e : Event) (s : State) : (emit e s).ctlLine = s.ctlLine := rfl
@[simp] theorem emit_tpReq (e : Event) (s : State) : (emit e s).tpReq = s.tpReq := rfl
@[simp] theorem emit_txByte (e : Event) (s : State) : (emit e s).txByte = s.txByte := rfl
@[simp] theorem emit_txValid (e : Event) (s : State) : (emit e s).txValid = s.txValid := rfl
@[simp] theorem emit_evt (e : Event) (s : State) : (emit e s).evt = s.evt ++ [⟨s.now, e⟩] := rfl
@[simp] theorem emit_now (e : Event) (s : State) : (emit e s).now = s.now := rfl
@[simp] theorem emit_txReady (e : Event) (s : State) : (emit e s).txReady = s.txReady := rfl
@[simp] theorem emit_tpAns (e : Event) (s : State) : (emit e s).tpAns = s.tpAns := rfl
@[simp] theorem emit_tpFault (e : Event) (s : State) : (emit e s).tpFault = s.tpFault := rfl
@[simp] theorem emit_resetHeld (e : Event) (s : State) : (emit e s).resetHeld = s.resetHeld := rfl
@[simp] theorem emit_txStream (e : Event) (s : State) : (emit e s).txStream = s.txStream := rfl
@[simp] theorem emit_rxStream (e : Event) (s : State) : (emit e s).rxStream = s.rxStream := rfl
@[simp] theorem emit_script (e : Event) (s : State) : (emit e s).script = s.script := rfl
@[simp] theorem emit_rdata (e : Event) (s : State) : (emit e s).rdata = s.rdata := rfl
@[simp] theorem emit_freeCtr (e : Event) (s : State) : (emit e s).freeCtr = s.freeCtr := rfl
@[simp] theorem emit_epoch (e : Event) (s : State) : (emit e s).epoch = s.epoch := rfl

/-! ### `rxPurge` -/

@[simp] theorem rxPurge_cmd (s : State) : (rxPurge s).cmd = s.cmd := rfl
@[simp] theorem rxPurge_payload (s : State) : (rxPurge s).payload = s.payload := rfl
@[simp] theorem rxPurge_plen (s : State) : (rxPurge s).plen = s.plen := rfl
@[simp] theorem rxPurge_expbytes (s : State) : (rxPurge s).expbytes = s.expbytes := rfl
@[simp] theorem rxPurge_rdto (s : State) : (rxPurge s).rdto = s.rdto := rfl
@[simp] theorem rxPurge_cp (s : State) : (rxPurge s).cp = s.cp := rfl
@[simp] theorem rxPurge_vpfx (s : State) : (rxPurge s).vpfx = s.vpfx := rfl
@[simp] theorem rxPurge_vplen (s : State) : (rxPurge s).vplen = s.vplen := rfl
@[simp] theorem rxPurge_vpfxen (s : State) : (rxPurge s).vpfxen = s.vpfxen := rfl
@[simp] theorem rxPurge_vsub (s : State) : (rxPurge s).vsub = s.vsub := rfl
@[simp] theorem rxPurge_vslen (s : State) : (rxPurge s).vslen = s.vslen := rfl
@[simp] theorem rxPurge_vsuben (s : State) : (rxPurge s).vsuben = s.vsuben := rfl
@[simp] theorem rxPurge_cfg (s : State) : (rxPurge s).cfg = s.cfg := rfl
@[simp] theorem rxPurge_l (s : State) : (rxPurge s).l = s.l := rfl
@[simp] theorem rxPurge_st (s : State) : (rxPurge s).st = s.st := rfl
@[simp] theorem rxPurge_attempt (s : State) : (rxPurge s).attempt = s.attempt := rfl
@[simp] theorem rxPurge_natt (s : State) : (rxPurge s).natt = s.natt := rfl
@[simp] theorem rxPurge_lastErr (s : State) : (rxPurge s).lastErr = s.lastErr := rfl
@[simp] theorem rxPurge_txi (s : State) : (rxPurge s).txi = s.txi := rfl
@[simp] theorem rxPurge_t0 (s : State) : (rxPurge s).t0 = s.t0 := rfl
@[simp] theorem rxPurge_dl (s : State) : (rxPurge s).dl = s.dl := rfl
@[simp] theorem rxPurge_qdl (s : State) : (rxPurge s).qdl = s.qdl := rfl
@[simp] theorem rxPurge_frame (s : State) : (rxPurge s).frame = s.frame := rfl
@[simp] theorem rxPurge_flen (s : State) : (rxPurge s).flen = s.flen := rfl
@[simp] theorem rxPurge_trace (s : State) : (rxPurge s).trace = s.trace := rfl
@[simp] theorem rxPurge_tlen (s : State) : (rxPurge s).tlen = s.tlen := rfl
@[simp] theorem rxPurge_rxq (s : State) : (rxPurge s).rxq = [] := rfl
@[simp] theorem rxPurge_ok (s : State) : (rxPurge s).ok = s.ok := rfl
@[simp] theorem rxPurge_errkind (s : State) : (rxPurge s).errkind = s.errkind := rfl
@[simp] theorem rxPurge_succkind (s : State) : (rxPurge s).succkind = s.succkind := rfl
@[simp] theorem rxPurge_elapsed (s : State) : (rxPurge s).elapsed = s.elapsed := rfl
@[simp] theorem rxPurge_attempts (s : State) : (rxPurge s).attempts = s.attempts := rfl
@[simp] theorem rxPurge_expn (s : State) : (rxPurge s).expn = s.expn := rfl
@[simp] theorem rxPurge_gotn (s : State) : (rxPurge s).gotn = s.gotn := rfl
@[simp] theorem rxPurge_ck (s : State) : (rxPurge s).ck = s.ck := rfl
@[simp] theorem rxPurge_derr (s : State) : (rxPurge s).derr = s.derr := rfl
@[simp] theorem rxPurge_vres (s : State) : (rxPurge s).vres = s.vres := rfl
@[simp] theorem rxPurge_busy (s : State) : (rxPurge s).busy = s.busy := rfl
@[simp] theorem rxPurge_done (s : State) : (rxPurge s).done = s.done := rfl
@[simp] theorem rxPurge_cmderr (s : State) : (rxPurge s).cmderr = s.cmderr := rfl
@[simp] theorem rxPurge_cfgmiss (s : State) : (rxPurge s).cfgmiss = s.cfgmiss := rfl
@[simp] theorem rxPurge_owned (s : State) : (rxPurge s).owned = s.owned := rfl
@[simp] theorem rxPurge_rxovr (s : State) : (rxPurge s).rxovr = false := rfl
@[simp] theorem rxPurge_ctlLine (s : State) : (rxPurge s).ctlLine = s.ctlLine := rfl
@[simp] theorem rxPurge_tpReq (s : State) : (rxPurge s).tpReq = s.tpReq := rfl
@[simp] theorem rxPurge_txByte (s : State) : (rxPurge s).txByte = s.txByte := rfl
@[simp] theorem rxPurge_txValid (s : State) : (rxPurge s).txValid = s.txValid := rfl
@[simp] theorem rxPurge_evt (s : State) : (rxPurge s).evt = s.evt := rfl
@[simp] theorem rxPurge_now (s : State) : (rxPurge s).now = s.now := rfl
@[simp] theorem rxPurge_txReady (s : State) : (rxPurge s).txReady = s.txReady := rfl
@[simp] theorem rxPurge_tpAns (s : State) : (rxPurge s).tpAns = s.tpAns := rfl
@[simp] theorem rxPurge_tpFault (s : State) : (rxPurge s).tpFault = s.tpFault := rfl
@[simp] theorem rxPurge_resetHeld (s : State) : (rxPurge s).resetHeld = s.resetHeld := rfl
@[simp] theorem rxPurge_txStream (s : State) : (rxPurge s).txStream = s.txStream := rfl
@[simp] theorem rxPurge_rxStream (s : State) : (rxPurge s).rxStream = s.rxStream := rfl
@[simp] theorem rxPurge_script (s : State) : (rxPurge s).script = s.script := rfl
@[simp] theorem rxPurge_rdata (s : State) : (rxPurge s).rdata = s.rdata := rfl
@[simp] theorem rxPurge_freeCtr (s : State) : (rxPurge s).freeCtr = s.freeCtr := rfl
@[simp] theorem rxPurge_epoch (s : State) : (rxPurge s).epoch = s.epoch := rfl

/-! ### `txPut` -/

@[simp] theorem txPut_cmd (b : Byte) (s : State) : (txPut b s).cmd = s.cmd := rfl
@[simp] theorem txPut_payload (b : Byte) (s : State) : (txPut b s).payload = s.payload := rfl
@[simp] theorem txPut_plen (b : Byte) (s : State) : (txPut b s).plen = s.plen := rfl
@[simp] theorem txPut_expbytes (b : Byte) (s : State) : (txPut b s).expbytes = s.expbytes := rfl
@[simp] theorem txPut_rdto (b : Byte) (s : State) : (txPut b s).rdto = s.rdto := rfl
@[simp] theorem txPut_cp (b : Byte) (s : State) : (txPut b s).cp = s.cp := rfl
@[simp] theorem txPut_vpfx (b : Byte) (s : State) : (txPut b s).vpfx = s.vpfx := rfl
@[simp] theorem txPut_vplen (b : Byte) (s : State) : (txPut b s).vplen = s.vplen := rfl
@[simp] theorem txPut_vpfxen (b : Byte) (s : State) : (txPut b s).vpfxen = s.vpfxen := rfl
@[simp] theorem txPut_vsub (b : Byte) (s : State) : (txPut b s).vsub = s.vsub := rfl
@[simp] theorem txPut_vslen (b : Byte) (s : State) : (txPut b s).vslen = s.vslen := rfl
@[simp] theorem txPut_vsuben (b : Byte) (s : State) : (txPut b s).vsuben = s.vsuben := rfl
@[simp] theorem txPut_cfg (b : Byte) (s : State) : (txPut b s).cfg = s.cfg := rfl
@[simp] theorem txPut_l (b : Byte) (s : State) : (txPut b s).l = s.l := rfl
@[simp] theorem txPut_st (b : Byte) (s : State) : (txPut b s).st = s.st := rfl
@[simp] theorem txPut_attempt (b : Byte) (s : State) : (txPut b s).attempt = s.attempt := rfl
@[simp] theorem txPut_natt (b : Byte) (s : State) : (txPut b s).natt = s.natt := rfl
@[simp] theorem txPut_lastErr (b : Byte) (s : State) : (txPut b s).lastErr = s.lastErr := rfl
@[simp] theorem txPut_txi (b : Byte) (s : State) : (txPut b s).txi = s.txi := rfl
@[simp] theorem txPut_t0 (b : Byte) (s : State) : (txPut b s).t0 = s.t0 := rfl
@[simp] theorem txPut_dl (b : Byte) (s : State) : (txPut b s).dl = s.dl := rfl
@[simp] theorem txPut_qdl (b : Byte) (s : State) : (txPut b s).qdl = s.qdl := rfl
@[simp] theorem txPut_frame (b : Byte) (s : State) : (txPut b s).frame = s.frame := rfl
@[simp] theorem txPut_flen (b : Byte) (s : State) : (txPut b s).flen = s.flen := rfl
@[simp] theorem txPut_trace (b : Byte) (s : State) : (txPut b s).trace = s.trace := rfl
@[simp] theorem txPut_tlen (b : Byte) (s : State) : (txPut b s).tlen = s.tlen := rfl
@[simp] theorem txPut_rxq (b : Byte) (s : State) : (txPut b s).rxq = s.rxq := rfl
@[simp] theorem txPut_ok (b : Byte) (s : State) : (txPut b s).ok = s.ok := rfl
@[simp] theorem txPut_errkind (b : Byte) (s : State) : (txPut b s).errkind = s.errkind := rfl
@[simp] theorem txPut_succkind (b : Byte) (s : State) : (txPut b s).succkind = s.succkind := rfl
@[simp] theorem txPut_elapsed (b : Byte) (s : State) : (txPut b s).elapsed = s.elapsed := rfl
@[simp] theorem txPut_attempts (b : Byte) (s : State) : (txPut b s).attempts = s.attempts := rfl
@[simp] theorem txPut_expn (b : Byte) (s : State) : (txPut b s).expn = s.expn := rfl
@[simp] theorem txPut_gotn (b : Byte) (s : State) : (txPut b s).gotn = s.gotn := rfl
@[simp] theorem txPut_ck (b : Byte) (s : State) : (txPut b s).ck = s.ck := rfl
@[simp] theorem txPut_derr (b : Byte) (s : State) : (txPut b s).derr = s.derr := rfl
@[simp] theorem txPut_vres (b : Byte) (s : State) : (txPut b s).vres = s.vres := rfl
@[simp] theorem txPut_busy (b : Byte) (s : State) : (txPut b s).busy = s.busy := rfl
@[simp] theorem txPut_done (b : Byte) (s : State) : (txPut b s).done = s.done := rfl
@[simp] theorem txPut_cmderr (b : Byte) (s : State) : (txPut b s).cmderr = s.cmderr := rfl
@[simp] theorem txPut_cfgmiss (b : Byte) (s : State) : (txPut b s).cfgmiss = s.cfgmiss := rfl
@[simp] theorem txPut_owned (b : Byte) (s : State) : (txPut b s).owned = s.owned := rfl
@[simp] theorem txPut_rxovr (b : Byte) (s : State) : (txPut b s).rxovr = s.rxovr := rfl
@[simp] theorem txPut_ctlLine (b : Byte) (s : State) : (txPut b s).ctlLine = s.ctlLine := rfl
@[simp] theorem txPut_tpReq (b : Byte) (s : State) : (txPut b s).tpReq = s.tpReq := rfl
@[simp] theorem txPut_txByte (b : Byte) (s : State) : (txPut b s).txByte = b := rfl
@[simp] theorem txPut_txValid (b : Byte) (s : State) : (txPut b s).txValid = true := rfl
@[simp] theorem txPut_evt (b : Byte) (s : State) : (txPut b s).evt = s.evt := rfl
@[simp] theorem txPut_now (b : Byte) (s : State) : (txPut b s).now = s.now := rfl
@[simp] theorem txPut_txReady (b : Byte) (s : State) : (txPut b s).txReady = s.txReady := rfl
@[simp] theorem txPut_tpAns (b : Byte) (s : State) : (txPut b s).tpAns = s.tpAns := rfl
@[simp] theorem txPut_tpFault (b : Byte) (s : State) : (txPut b s).tpFault = s.tpFault := rfl
@[simp] theorem txPut_resetHeld (b : Byte) (s : State) : (txPut b s).resetHeld = s.resetHeld := rfl
@[simp] theorem txPut_txStream (b : Byte) (s : State) : (txPut b s).txStream = s.txStream ++ [b] := rfl
@[simp] theorem txPut_rxStream (b : Byte) (s : State) : (txPut b s).rxStream = s.rxStream := rfl
@[simp] theorem txPut_script (b : Byte) (s : State) : (txPut b s).script = s.script := rfl
@[simp] theorem txPut_rdata (b : Byte) (s : State) : (txPut b s).rdata = s.rdata := rfl
@[simp] theorem txPut_freeCtr (b : Byte) (s : State) : (txPut b s).freeCtr = s.freeCtr := rfl
@[simp] theorem txPut_epoch (b : Byte) (s : State) : (txPut b s).epoch = s.epoch := rfl

/-! ### `release` -/

@[simp] theorem release_cmd (s : State) : (release s).cmd = s.cmd := rfl
@[simp] theorem release_payload (s : State) : (release s).payload = s.payload := rfl
@[simp] theorem release_plen (s : State) : (release s).plen = s.plen := rfl
@[simp] theorem release_expbytes (s : State) : (release s).expbytes = s.expbytes := rfl
@[simp] theorem release_rdto (s : State) : (release s).rdto = s.rdto := rfl
@[simp] theorem release_cp (s : State) : (release s).cp = s.cp := rfl
@[simp] theorem release_vpfx (s : State) : (release s).vpfx = s.vpfx := rfl
@[simp] theorem release_vplen (s : State) : (release s).vplen = s.vplen := rfl
@[simp] theorem release_vpfxen (s : State) : (release s).vpfxen = s.vpfxen := rfl
@[simp] theorem release_vsub (s : State) : (release s).vsub = s.vsub := rfl
@[simp] theorem release_vslen (s : State) : (release s).vslen = s.vslen := rfl
@[simp] theorem release_vsuben (s : State) : (release s).vsuben = s.vsuben := rfl
@[simp] theorem release_cfg (s : State) : (release s).cfg = s.cfg := rfl
@[simp] theorem release_l (s : State) : (release s).l = s.l := rfl
@[simp] theorem release_st (s : State) : (release s).st = s.st := rfl
@[simp] theorem release_attempt (s : State) : (release s).attempt = s.attempt := rfl
@[simp] theorem release_natt (s : State) : (release s).natt = s.natt := rfl
@[simp] theorem release_lastErr (s : State) : (release s).lastErr = s.lastErr := rfl
@[simp] theorem release_txi (s : State) : (release s).txi = s.txi := rfl
@[simp] theorem release_t0 (s : State) : (release s).t0 = s.t0 := rfl
@[simp] theorem release_dl (s : State) : (release s).dl = s.dl := rfl
@[simp] theorem release_qdl (s : State) : (release s).qdl = s.qdl := rfl
@[simp] theorem release_frame (s : State) : (release s).frame = s.frame := rfl
@[simp] theorem release_flen (s : State) : (release s).flen = s.flen := rfl
@[simp] theorem release_trace (s : State) : (release s).trace = s.trace := rfl
@[simp] theorem release_tlen (s : State) : (release s).tlen = s.tlen := rfl
@[simp] theorem release_rxq (s : State) : (release s).rxq = s.rxq := rfl
@[simp] theorem release_ok (s : State) : (release s).ok = s.ok := rfl
@[simp] theorem release_errkind (s : State) : (release s).errkind = s.errkind := rfl
@[simp] theorem release_succkind (s : State) : (release s).succkind = s.succkind := rfl
@[simp] theorem release_elapsed (s : State) : (release s).elapsed = s.elapsed := rfl
@[simp] theorem release_attempts (s : State) : (release s).attempts = s.attempts := rfl
@[simp] theorem release_expn (s : State) : (release s).expn = s.expn := rfl
@[simp] theorem release_gotn (s : State) : (release s).gotn = s.gotn := rfl
@[simp] theorem release_ck (s : State) : (release s).ck = s.ck := rfl
@[simp] theorem release_derr (s : State) : (release s).derr = s.derr := rfl
@[simp] theorem release_vres (s : State) : (release s).vres = s.vres := rfl
@[simp] theorem release_busy (s : State) : (release s).busy = s.busy := rfl
@[simp] theorem release_done (s : State) : (release s).done = s.done := rfl
@[simp] theorem release_cmderr (s : State) : (release s).cmderr = s.cmderr := rfl
@[simp] theorem release_cfgmiss (s : State) : (release s).cfgmiss = s.cfgmiss := rfl
@[simp] theorem release_owned (s : State) : (release s).owned = false := rfl
@[simp] theorem release_rxovr (s : State) : (release s).rxovr = s.rxovr := rfl
@[simp] theorem release_ctlLine (s : State) : (release s).ctlLine = s.ctlLine := rfl
@[simp] theorem release_tpReq (s : State) : (release s).tpReq = false := rfl
@[simp] theorem release_txByte (s : State) : (release s).txByte = s.txByte := rfl
@[simp] theorem release_txValid (s : State) : (release s).txValid = s.txValid := rfl
@[simp] theorem release_evt (s : State) : (release s).evt = s.evt ++ (if s.owned then [⟨s.now, .release⟩] else []) := rfl
@[simp] theorem release_now (s : State) : (release s).now = s.now := rfl
@[simp] theorem release_txReady (s : State) : (release s).txReady = s.txReady := rfl
@[simp] theorem release_tpAns (s : State) : (release s).tpAns = s.tpAns := rfl
@[simp] theorem release_tpFault (s : State) : (release s).tpFault = s.tpFault := rfl
@[simp] theorem release_resetHeld (s : State) : (release s).resetHeld = s.resetHeld := rfl
@[simp] theorem release_txStream (s : State) : (release s).txStream = s.txStream := rfl
@[simp] theorem release_rxStream (s : State) : (release s).rxStream = s.rxStream := rfl
@[simp] theorem release_script (s : State) : (release s).script = s.script := rfl
@[simp] theorem release_rdata (s : State) : (release s).rdata = s.rdata := rfl
@[simp] theorem release_freeCtr (s : State) : (release s).freeCtr = s.freeCtr := rfl
@[simp] theorem release_epoch (s : State) : (release s).epoch = s.epoch := rfl

/-! ### `startAttempt` -/

@[simp] theorem startAttempt_cmd (s : State) : (startAttempt s).cmd = s.cmd := rfl
@[simp] theorem startAttempt_payload (s : State) : (startAttempt s).payload = s.payload := rfl
@[simp] theorem startAttempt_plen (s : State) : (startAttempt s).plen = s.plen := rfl
@[simp] theorem startAttempt_expbytes (s : State) : (startAttempt s).expbytes = s.expbytes := rfl
@[simp] theorem startAttempt_rdto (s : State) : (startAttempt s).rdto = s.rdto := rfl
@[simp] theorem startAttempt_cp (s : State) : (startAttempt s).cp = s.cp := rfl
@[simp] theorem startAttempt_vpfx (s : State) : (startAttempt s).vpfx = s.vpfx := rfl
@[simp] theorem startAttempt_vplen (s : State) : (startAttempt s).vplen = s.vplen := rfl
@[simp] theorem startAttempt_vpfxen (s : State) : (startAttempt s).vpfxen = s.vpfxen := rfl
@[simp] theorem startAttempt_vsub (s : State) : (startAttempt s).vsub = s.vsub := rfl
@[simp] theorem startAttempt_vslen (s : State) : (startAttempt s).vslen = s.vslen := rfl
@[simp] theorem startAttempt_vsuben (s : State) : (startAttempt s).vsuben = s.vsuben := rfl
@[simp] theorem startAttempt_cfg (s : State) : (startAttempt s).cfg = s.cfg := rfl
@[simp] theorem startAttempt_l (s : State) : (startAttempt s).l = s.l := rfl
@[simp] theorem startAttempt_st (s : State) : (startAttempt s).st = .opening := rfl
@[simp] theorem startAttempt_attempt (s : State) : (startAttempt s).attempt = s.attempt := rfl
@[simp] theorem startAttempt_natt (s : State) : (startAttempt s).natt = s.natt := rfl
@[simp] theorem startAttempt_lastErr (s : State) : (startAttempt s).lastErr = s.lastErr := rfl
@[simp] theorem startAttempt_txi (s : State) : (startAttempt s).txi = s.txi := rfl
@[simp] theorem startAttempt_t0 (s : State) : (startAttempt s).t0 = s.t0 := rfl
@[simp] theorem startAttempt_dl (s : State) : (startAttempt s).dl = s.dl := rfl
@[simp] theorem startAttempt_qdl (s : State) : (startAttempt s).qdl = s.qdl := rfl
@[simp] theorem startAttempt_frame (s : State) : (startAttempt s).frame = s.frame := rfl
@[simp] theorem startAttempt_flen (s : State) : (startAttempt s).flen = s.flen := rfl
@[simp] theorem startAttempt_trace (s : State) : (startAttempt s).trace = s.trace := rfl
@[simp] theorem startAttempt_tlen (s : State) : (startAttempt s).tlen = 0 := rfl
@[simp] theorem startAttempt_rxq (s : State) : (startAttempt s).rxq = s.rxq := rfl
@[simp] theorem startAttempt_ok (s : State) : (startAttempt s).ok = s.ok := rfl
@[simp] theorem startAttempt_errkind (s : State) : (startAttempt s).errkind = s.errkind := rfl
@[simp] theorem startAttempt_succkind (s : State) : (startAttempt s).succkind = s.succkind := rfl
@[simp] theorem startAttempt_elapsed (s : State) : (startAttempt s).elapsed = s.elapsed := rfl
@[simp] theorem startAttempt_attempts (s : State) : (startAttempt s).attempts = s.attempts := rfl
@[simp] theorem startAttempt_expn (s : State) : (startAttempt s).expn = 0 := rfl
@[simp] theorem startAttempt_gotn (s : State) : (startAttempt s).gotn = 0 := rfl
@[simp] theorem startAttempt_ck (s : State) : (startAttempt s).ck = s.ck := rfl
@[simp] theorem startAttempt_derr (s : State) : (startAttempt s).derr = s.derr := rfl
@[simp] theorem startAttempt_vres (s : State) : (startAttempt s).vres = s.vres := rfl
@[simp] theorem startAttempt_busy (s : State) : (startAttempt s).busy = s.busy := rfl
@[simp] theorem startAttempt_done (s : State) : (startAttempt s).done = s.done := rfl
@[simp] theorem startAttempt_cmderr (s : State) : (startAttempt s).cmderr = s.cmderr := rfl
@[simp] theorem startAttempt_cfgmiss (s : State) : (startAttempt s).cfgmiss = s.cfgmiss := rfl
@[simp] theorem startAttempt_owned (s : State) : (startAttempt s).owned = s.owned := rfl
@[simp] theorem startAttempt_rxovr (s : State) : (startAttempt s).rxovr = s.rxovr := rfl
@[simp] theorem startAttempt_ctlLine (s : State) : (startAttempt s).ctlLine = s.ctlLine := rfl
@[simp] theorem startAttempt_tpReq (s : State) : (startAttempt s).tpReq = true := rfl
@[simp] theorem startAttempt_txByte (s : State) : (startAttempt s).txByte = s.txByte := rfl
@[simp] theorem startAttempt_txValid (s : State) : (startAttempt s).txValid = s.txValid := rfl
@[simp] theorem startAttempt_evt (s : State) : (startAttempt s).evt = s.evt ++ [⟨s.now, .attemptStart s.attempt⟩] := rfl
@[simp] theorem startAttempt_now (s : State) : (startAttempt s).now = s.now := rfl
@[simp] theorem startAttempt_txReady (s : State) : (startAttempt s).txReady = s.txReady := rfl
@[simp] theorem startAttempt_tpAns (s : State) : (startAttempt s).tpAns = s.tpAns := rfl
@[simp] theorem startAttempt_tpFault (s : State) : (startAttempt s).tpFault = s.tpFault := rfl
@[simp] theorem startAttempt_resetHeld (s : State) : (startAttempt s).resetHeld = s.resetHeld := rfl
@[simp] theorem startAttempt_txStream (s : State) : (startAttempt s).txStream = s.txStream := rfl
@[simp] theorem startAttempt_rxStream (s : State) : (startAttempt s).rxStream = s.rxStream := rfl
@[simp] theorem startAttempt_script (s : State) : (startAttempt s).script = s.script := rfl
@[simp] theorem startAttempt_rdata (s : State) : (startAttempt s).rdata = s.rdata := rfl
@[simp] theorem startAttempt_freeCtr (s : State) : (startAttempt s).freeCtr = s.freeCtr := rfl
@[simp] theorem startAttempt_epoch (s : State) : (startAttempt s).epoch = s.epoch := rfl

/-! ### `succeed` -/

@[simp] theorem succeed_cmd (s : State) : (succeed s).cmd = s.cmd := rfl
@[simp] theorem succeed_payload (s : State) : (succeed s).payload = s.payload := rfl
@[simp] theorem succeed_plen (s : State) : (succeed s).plen = s.plen := rfl
@[simp] theorem succeed_expbytes (s : State) : (succeed s).expbytes = s.expbytes := rfl
@[simp] theorem succeed_rdto (s : State) : (succeed s).rdto = s.rdto := rfl
@[simp] theorem succeed_cp (s : State) : (succeed s).cp = s.cp := rfl
@[simp] theorem succeed_vpfx (s : State) : (succeed s).vpfx = s.vpfx := rfl
@[simp] theorem succeed_vplen (s : State) : (succeed s).vplen = s.vplen := rfl
@[simp] theorem succeed_vpfxen (s : State) : (succeed s).vpfxen = s.vpfxen := rfl
@[simp] theorem succeed_vsub (s : State) : (succeed s).vsub = s.vsub := rfl
@[simp] theorem succeed_vslen (s : State) : (succeed s).vslen = s.vslen := rfl
@[simp] theorem succeed_vsuben (s : State) : (succeed s).vsuben = s.vsuben := rfl
@[simp] theorem succeed_cfg (s : State) : (succeed s).cfg = s.cfg := rfl
@[simp] theorem succeed_l (s : State) : (succeed s).l = s.l := rfl
@[simp] theorem succeed_st (s : State) : (succeed s).st = .release := rfl
@[simp] theorem succeed_attempt (s : State) : (succeed s).attempt = s.attempt := rfl
@[simp] theorem succeed_natt (s : State) : (succeed s).natt = s.natt := rfl
@[simp] theorem succeed_lastErr (s : State) : (succeed s).lastErr = s.lastErr := rfl
@[simp] theorem succeed_txi (s : State) : (succeed s).txi = s.txi := rfl
@[simp] theorem succeed_t0 (s : State) : (succeed s).t0 = s.t0 := rfl
@[simp] theorem succeed_dl (s : State) : (succeed s).dl = s.dl := rfl
@[simp] theorem succeed_qdl (s : State) : (succeed s).qdl = s.qdl := rfl
@[simp] theorem succeed_frame (s : State) : (succeed s).frame = s.frame := rfl
@[simp] theorem succeed_flen (s : State) : (succeed s).flen = s.flen := rfl
@[simp] theorem succeed_trace (s : State) : (succeed s).trace = s.trace := rfl
@[simp] theorem succeed_tlen (s : State) : (succeed s).tlen = s.tlen := rfl
@[simp] theorem succeed_rxq (s : State) : (succeed s).rxq = s.rxq := rfl
@[simp] theorem succeed_ok (s : State) : (succeed s).ok = s.ok := rfl
@[simp] theorem succeed_errkind (s : State) : (succeed s).errkind = s.errkind := rfl
@[simp] theorem succeed_succkind (s : State) : (succeed s).succkind = s.succkind := rfl
@[simp] theorem succeed_elapsed (s : State) : (succeed s).elapsed = s.elapsed := rfl
@[simp] theorem succeed_attempts (s : State) : (succeed s).attempts = s.attempts := rfl
@[simp] theorem succeed_expn (s : State) : (succeed s).expn = s.expn := rfl
@[simp] theorem succeed_gotn (s : State) : (succeed s).gotn = s.gotn := rfl
@[simp] theorem succeed_ck (s : State) : (succeed s).ck = s.ck := rfl
@[simp] theorem succeed_derr (s : State) : (succeed s).derr = s.derr := rfl
@[simp] theorem succeed_vres (s : State) : (succeed s).vres = s.vres := rfl
@[simp] theorem succeed_busy (s : State) : (succeed s).busy = s.busy := rfl
@[simp] theorem succeed_done (s : State) : (succeed s).done = s.done := rfl
@[simp] theorem succeed_cmderr (s : State) : (succeed s).cmderr = s.cmderr := rfl
@[simp] theorem succeed_cfgmiss (s : State) : (succeed s).cfgmiss = s.cfgmiss := rfl
@[simp] theorem succeed_owned (s : State) : (succeed s).owned = s.owned := rfl
@[simp] theorem succeed_rxovr (s : State) : (succeed s).rxovr = s.rxovr := rfl
@[simp] theorem succeed_ctlLine (s : State) : (succeed s).ctlLine = s.ctlLine := rfl
@[simp] theorem succeed_tpReq (s : State) : (succeed s).tpReq = s.tpReq := rfl
@[simp] theorem succeed_txByte (s : State) : (succeed s).txByte = s.txByte := rfl
@[simp] theorem succeed_txValid (s : State) : (succeed s).txValid = s.txValid := rfl
@[simp] theorem succeed_evt (s : State) : (succeed s).evt = s.evt := rfl
@[simp] theorem succeed_now (s : State) : (succeed s).now = s.now := rfl
@[simp] theorem succeed_txReady (s : State) : (succeed s).txReady = s.txReady := rfl
@[simp] theorem succeed_tpAns (s : State) : (succeed s).tpAns = s.tpAns := rfl
@[simp] theorem succeed_tpFault (s : State) : (succeed s).tpFault = s.tpFault := rfl
@[simp] theorem succeed_resetHeld (s : State) : (succeed s).resetHeld = s.resetHeld := rfl
@[simp] theorem succeed_txStream (s : State) : (succeed s).txStream = s.txStream := rfl
@[simp] theorem succeed_rxStream (s : State) : (succeed s).rxStream = s.rxStream := rfl
@[simp] theorem succeed_script (s : State) : (succeed s).script = s.script := rfl
@[simp] theorem succeed_rdata (s : State) : (succeed s).rdata = s.rdata := rfl
@[simp] theorem succeed_freeCtr (s : State) : (succeed s).freeCtr = s.freeCtr := rfl
@[simp] theorem succeed_epoch (s : State) : (succeed s).epoch = s.epoch := rfl

/-! ### `raise` -/

@[simp] theorem raise_cmd (k : ErrKind) (info : FailInfo) (s : State) : (raise k info s).cmd = s.cmd := rfl
@[simp] theorem raise_payload (k : ErrKind) (info : FailInfo) (s : State) : (raise k info s).payload = s.payload := rfl
@[simp] theorem raise_plen (k : ErrKind) (info : FailInfo) (s : State) : (raise k info s).plen = s.plen := rfl
@[simp] theorem raise_expbytes (k : ErrKind) (info : FailInfo) (s : State) : (raise k info s).expbytes = s.expbytes := rfl
@[simp] theorem raise_rdto (k : ErrKind) (info : FailInfo) (s : State) : (raise k info s).rdto = s.rdto := rfl
@[simp] theorem raise_cp (k : ErrKind) (info : FailInfo) (s : State) : (raise k info s).cp = s.cp := rfl
@[simp] theorem raise_vpfx (k : ErrKind) (info : FailInfo) (s : State) : (raise k info s).vpfx = s.vpfx := rfl
@[simp] theorem raise_vplen (k : ErrKind) (info : FailInfo) (s : State) : (raise k info s).vplen = s.vplen := rfl
@[simp] theorem raise_vpfxen (k : ErrKind) (info : FailInfo) (s : State) : (raise k info s).vpfxen = s.vpfxen := rfl
@[simp] theorem raise_vsub (k : ErrKind) (info : FailInfo) (s : State) : (raise k info s).vsub = s.vsub := rfl
@[simp] theorem raise_vslen (k : ErrKind) (info : FailInfo) (s : State) : (raise k info s).vslen = s.vslen := rfl
@[simp] theorem raise_vsuben (k : ErrKind) (info : FailInfo) (s : State) : (raise k info s).vsuben = s.vsuben := rfl
@[simp] theorem raise_cfg (k : ErrKind) (info : FailInfo) (s : State) : (raise k info s).cfg = s.cfg := rfl
@[simp] theorem raise_l (k : ErrKind) (info : FailInfo) (s : State) : (raise k info s).l = s.l := rfl
@[simp] theorem raise_st (k : ErrKind) (info : FailInfo) (s : State) : (raise k info s).st = .failed := rfl
@[simp] theorem raise_attempt (k : ErrKind) (info : FailInfo) (s : State) : (raise k info s).attempt = s.attempt := rfl
@[simp] theorem raise_natt (k : ErrKind) (info : FailInfo) (s : State) : (raise k info s).natt = s.natt := rfl
@[simp] theorem raise_lastErr (k : ErrKind) (info : FailInfo) (s : State) : (raise k info s).lastErr = k := rfl
@[simp] theorem raise_txi (k : ErrKind) (info : FailInfo) (s : State) : (raise k info s).txi = s.txi := rfl
@[simp] theorem raise_t0 (k : ErrKind) (info : FailInfo) (s : State) : (raise k info s).t0 = s.t0 := rfl
@[simp] theorem raise_dl (k : ErrKind) (info : FailInfo) (s : State) : (raise k info s).dl = s.dl := rfl
@[simp] theorem raise_qdl (k : ErrKind) (info : FailInfo) (s : State) : (raise k info s).qdl = s.qdl := rfl
@[simp] theorem raise_frame (k : ErrKind) (info : FailInfo) (s : State) : (raise k info s).frame = s.frame := rfl
@[simp] theorem raise_flen (k : ErrKind) (info : FailInfo) (s : State) : (raise k info s).flen = s.flen := rfl
@[simp] theorem raise_trace (k : ErrKind) (info : FailInfo) (s : State) : (raise k info s).trace = s.trace := rfl
@[simp] theorem raise_tlen (k : ErrKind) (info : FailInfo) (s : State) : (raise k info s).tlen = s.tlen := rfl
@[simp] theorem raise_rxq (k : ErrKind) (info : FailInfo) (s : State) : (raise k info s).rxq = s.rxq := rfl
@[simp] theorem raise_ok (k : ErrKind) (info : FailInfo) (s : State) : (raise k info s).ok = s.ok := rfl
@[simp] theorem raise_errkind (k : ErrKind) (info : FailInfo) (s : State) : (raise k info s).errkind = s.errkind := rfl
@[simp] theorem raise_succkind (k : ErrKind) (info : FailInfo) (s : State) : (raise k info s).succkind = s.succkind := rfl
@[simp] theorem raise_elapsed (k : ErrKind) (info : FailInfo) (s : State) : (raise k info s).elapsed = s.elapsed := rfl
@[simp] theorem raise_attempts (k : ErrKind) (info : FailInfo) (s : State) : (raise k info s).attempts = s.attempts := rfl
@[simp] theorem raise_expn (k : ErrKind) (info : FailInfo) (s : State) : (raise k info s).expn = s.expn := rfl
@[simp] theorem raise_gotn (k : ErrKind) (info : FailInfo) (s : State) : (raise k info s).gotn = s.gotn := rfl
@[simp] theorem raise_ck (k : ErrKind) (info : FailInfo) (s : State) : (raise k info s).ck = s.ck := rfl
@[simp] theorem raise_derr (k : ErrKind) (info : FailInfo) (s : State) : (raise k info s).derr = s.derr := rfl
@[simp] theorem raise_vres (k : ErrKind) (info : FailInfo) (s : State) : (raise k info s).vres = s.vres := rfl
@[simp] theorem raise_busy (k : ErrKind) (info : FailInfo) (s : State) : (raise k info s).busy = s.busy := rfl
@[simp] theorem raise_done (k : ErrKind) (info : FailInfo) (s : State) : (raise k info s).done = s.done := rfl
@[simp] theorem raise_cmderr (k : ErrKind) (info : FailInfo) (s : State) : (raise k info s).cmderr = s.cmderr := rfl
@[simp] theorem raise_cfgmiss (k : ErrKind) (info : FailInfo) (s : State) : (raise k info s).cfgmiss = s.cfgmiss := rfl
@[simp] theorem raise_owned (k : ErrKind) (info : FailInfo) (s : State) : (raise k info s).owned = s.owned := rfl
@[simp] theorem raise_rxovr (k : ErrKind) (info : FailInfo) (s : State) : (raise k info s).rxovr = s.rxovr := rfl
@[simp] theorem raise_ctlLine (k : ErrKind) (info : FailInfo) (s : State) : (raise k info s).ctlLine = s.ctlLine := rfl
@[simp] theorem raise_tpReq (k : ErrKind) (info : FailInfo) (s : State) : (raise k info s).tpReq = s.tpReq := rfl
@[simp] theorem raise_txByte (k : ErrKind) (info : FailInfo) (s : State) : (raise k info s).txByte = s.txByte := rfl
@[simp] theorem raise_txValid (k : ErrKind) (info : FailInfo) (s : State) : (raise k info s).txValid = s.txValid := rfl
@[simp] theorem raise_evt (k : ErrKind) (info : FailInfo) (s : State) : (raise k info s).evt = s.evt ++ [⟨s.now, .attemptFail k info⟩] := rfl
@[simp] theorem raise_now (k : ErrKind) (info : FailInfo) (s : State) : (raise k info s).now = s.now := rfl
@[simp] theorem raise_txReady (k : ErrKind) (info : FailInfo) (s : State) : (raise k info s).txReady = s.txReady := rfl
@[simp] theorem raise_tpAns (k : ErrKind) (info : FailInfo) (s : State) : (raise k info s).tpAns = s.tpAns := rfl
@[simp] theorem raise_tpFault (k : ErrKind) (info : FailInfo) (s : State) : (raise k info s).tpFault = s.tpFault := rfl
@[simp] theorem raise_resetHeld (k : ErrKind) (info : FailInfo) (s : State) : (raise k info s).resetHeld = s.resetHeld := rfl
@[simp] theorem raise_txStream (k : ErrKind) (info : FailInfo) (s : State) : (raise k info s).txStream = s.txStream := rfl
@[simp] theorem raise_rxStream (k : ErrKind) (info : FailInfo) (s : State) : (raise k info s).rxStream = s.rxStream := rfl
@[simp] theorem raise_script (k : ErrKind) (info : FailInfo) (s : State) : (raise k info s).script = s.script := rfl
@[simp] theorem raise_rdata (k : ErrKind) (info : FailInfo) (s : State) : (raise k info s).rdata = s.rdata := rfl
@[simp] theorem raise_freeCtr (k : ErrKind) (info : FailInfo) (s : State) : (raise k info s).freeCtr = s.freeCtr := rfl
@[simp] theorem raise_epoch (k : ErrKind) (info : FailInfo) (s : State) : (raise k info s).epoch = s.epoch := rfl

/-! ### `writeOutcome` -/

@[simp] theorem writeOutcome_cmd (o : Bool) (k : ErrKind) (c : SuccKind) (s : State) : (writeOutcome o k c s).cmd = s.cmd := rfl
@[simp] theorem writeOutcome_payload (o : Bool) (k : ErrKind) (c : SuccKind) (s : State) : (writeOutcome o k c s).payload = s.payload := rfl
@[simp] theorem writeOutcome_plen (o : Bool) (k : ErrKind) (c : SuccKind) (s : State) : (writeOutcome o k c s).plen = s.plen := rfl
@[simp] theorem writeOutcome_expbytes (o : Bool) (k : ErrKind) (c : SuccKind) (s : State) : (writeOutcome o k c s).expbytes = s.expbytes := rfl
@[simp] theorem writeOutcome_rdto (o : Bool) (k : ErrKind) (c : SuccKind) (s : State) : (writeOutcome o k c s).rdto = s.rdto := rfl
@[simp] theorem writeOutcome_cp (o : Bool) (k : ErrKind) (c : SuccKind) (s : State) : (writeOutcome o k c s).cp = s.cp := rfl
@[simp] theorem writeOutcome_vpfx (o : Bool) (k : ErrKind) (c : SuccKind) (s : State) : (writeOutcome o k c s).vpfx = s.vpfx := rfl
@[simp] theorem writeOutcome_vplen (o : Bool) (k : ErrKind) (c : SuccKind) (s : State) : (writeOutcome o k c s).vplen = s.vplen := rfl
@[simp] theorem writeOutcome_vpfxen (o : Bool) (k : ErrKind) (c : SuccKind) (s : State) : (writeOutcome o k c s).vpfxen = s.vpfxen := rfl
@[simp] theorem writeOutcome_vsub (o : Bool) (k : ErrKind) (c : SuccKind) (s : State) : (writeOutcome o k c s).vsub = s.vsub := rfl
@[simp] theorem writeOutcome_vslen (o : Bool) (k : ErrKind) (c : SuccKind) (s : State) : (writeOutcome o k c s).vslen = s.vslen := rfl
@[simp] theorem writeOutcome_vsuben (o : Bool) (k : ErrKind) (c : SuccKind) (s : State) : (writeOutcome o k c s).vsuben = s.vsuben := rfl
@[simp] theorem writeOutcome_cfg (o : Bool) (k : ErrKind) (c : SuccKind) (s : State) : (writeOutcome o k c s).cfg = s.cfg := rfl
@[simp] theorem writeOutcome_l (o : Bool) (k : ErrKind) (c : SuccKind) (s : State) : (writeOutcome o k c s).l = s.l := rfl
@[simp] theorem writeOutcome_st (o : Bool) (k : ErrKind) (c : SuccKind) (s : State) : (writeOutcome o k c s).st = .closed := rfl
@[simp] theorem writeOutcome_attempt (o : Bool) (k : ErrKind) (c : SuccKind) (s : State) : (writeOutcome o k c s).attempt = s.attempt := rfl
@[simp] theorem writeOutcome_natt (o : Bool) (k : ErrKind) (c : SuccKind) (s : State) : (writeOutcome o k c s).natt = s.natt := rfl
@[simp] theorem writeOutcome_lastErr (o : Bool) (k : ErrKind) (c : SuccKind) (s : State) : (writeOutcome o k c s).lastErr = s.lastErr := rfl
@[simp] theorem writeOutcome_txi (o : Bool) (k : ErrKind) (c : SuccKind) (s : State) : (writeOutcome o k c s).txi = s.txi := rfl
@[simp] theorem writeOutcome_t0 (o : Bool) (k : ErrKind) (c : SuccKind) (s : State) : (writeOutcome o k c s).t0 = s.t0 := rfl
@[simp] theorem writeOutcome_dl (o : Bool) (k : ErrKind) (c : SuccKind) (s : State) : (writeOutcome o k c s).dl = s.dl := rfl
@[simp] theorem writeOutcome_qdl (o : Bool) (k : ErrKind) (c : SuccKind) (s : State) : (writeOutcome o k c s).qdl = s.qdl := rfl
@[simp] theorem writeOutcome_frame (o : Bool) (k : ErrKind) (c : SuccKind) (s : State) : (writeOutcome o k c s).frame = s.frame := rfl
@[simp] theorem writeOutcome_flen (o : Bool) (k : ErrKind) (c : SuccKind) (s : State) : (writeOutcome o k c s).flen = s.flen := rfl
@[simp] theorem writeOutcome_trace (o : Bool) (k : ErrKind) (c : SuccKind) (s : State) : (writeOutcome o k c s).trace = s.trace := rfl
@[simp] theorem writeOutcome_tlen (o : Bool) (k : ErrKind) (c : SuccKind) (s : State) : (writeOutcome o k c s).tlen = s.tlen := rfl
@[simp] theorem writeOutcome_rxq (o : Bool) (k : ErrKind) (c : SuccKind) (s : State) : (writeOutcome o k c s).rxq = s.rxq := rfl
@[simp] theorem writeOutcome_ok (o : Bool) (k : ErrKind) (c : SuccKind) (s : State) : (writeOutcome o k c s).ok = o := rfl
@[simp] theorem writeOutcome_errkind (o : Bool) (k : ErrKind) (c : SuccKind) (s : State) : (writeOutcome o k c s).errkind = k := rfl
@[simp] theorem writeOutcome_succkind (o : Bool) (k : ErrKind) (c : SuccKind) (s : State) : (writeOutcome o k c s).succkind = c := rfl
@[simp] theorem writeOutcome_elapsed (o : Bool) (k : ErrKind) (c : SuccKind) (s : State) : (writeOutcome o k c s).elapsed = s.now - s.t0 := rfl
@[simp] theorem writeOutcome_attempts (o : Bool) (k : ErrKind) (c : SuccKind) (s : State) : (writeOutcome o k c s).attempts = s.attempt := rfl
@[simp] theorem writeOutcome_expn (o : Bool) (k : ErrKind) (c : SuccKind) (s : State) : (writeOutcome o k c s).expn = s.expn := rfl
@[simp] theorem writeOutcome_gotn (o : Bool) (k : ErrKind) (c : SuccKind) (s : State) : (writeOutcome o k c s).gotn = s.gotn := rfl
@[simp] theorem writeOutcome_ck (o : Bool) (k : ErrKind) (c : SuccKind) (s : State) : (writeOutcome o k c s).ck = s.ck := rfl
@[simp] theorem writeOutcome_derr (o : Bool) (k : ErrKind) (c : SuccKind) (s : State) : (writeOutcome o k c s).derr = s.derr := rfl
@[simp] theorem writeOutcome_vres (o : Bool) (k : ErrKind) (c : SuccKind) (s : State) : (writeOutcome o k c s).vres = s.vres := rfl
@[simp] theorem writeOutcome_busy (o : Bool) (k : ErrKind) (c : SuccKind) (s : State) : (writeOutcome o k c s).busy = false := rfl
@[simp] theorem writeOutcome_done (o : Bool) (k : ErrKind) (c : SuccKind) (s : State) : (writeOutcome o k c s).done = true := rfl
@[simp] theorem writeOutcome_cmderr (o : Bool) (k : ErrKind) (c : SuccKind) (s : State) : (writeOutcome o k c s).cmderr = s.cmderr := rfl
@[simp] theorem writeOutcome_cfgmiss (o : Bool) (k : ErrKind) (c : SuccKind) (s : State) : (writeOutcome o k c s).cfgmiss = s.cfgmiss := rfl
@[simp] theorem writeOutcome_owned (o : Bool) (k : ErrKind) (c : SuccKind) (s : State) : (writeOutcome o k c s).owned = s.owned := rfl
@[simp] theorem writeOutcome_rxovr (o : Bool) (k : ErrKind) (c : SuccKind) (s : State) : (writeOutcome o k c s).rxovr = s.rxovr := rfl
@[simp] theorem writeOutcome_ctlLine (o : Bool) (k : ErrKind) (c : SuccKind) (s : State) : (writeOutcome o k c s).ctlLine = s.ctlLine := rfl
@[simp] theorem writeOutcome_tpReq (o : Bool) (k : ErrKind) (c : SuccKind) (s : State) : (writeOutcome o k c s).tpReq = s.tpReq := rfl
@[simp] theorem writeOutcome_txByte (o : Bool) (k : ErrKind) (c : SuccKind) (s : State) : (writeOutcome o k c s).txByte = s.txByte := rfl
@[simp] theorem writeOutcome_txValid (o : Bool) (k : ErrKind) (c : SuccKind) (s : State) : (writeOutcome o k c s).txValid = s.txValid := rfl
@[simp] theorem writeOutcome_evt (o : Bool) (k : ErrKind) (c : SuccKind) (s : State) : (writeOutcome o k c s).evt = s.evt ++ [⟨s.now, .done o k⟩] := rfl
@[simp] theorem writeOutcome_now (o : Bool) (k : ErrKind) (c : SuccKind) (s : State) : (writeOutcome o k c s).now = s.now := rfl
@[simp] theorem writeOutcome_txReady (o : Bool) (k : ErrKind) (c : SuccKind) (s : State) : (writeOutcome o k c s).txReady = s.txReady := rfl
@[simp] theorem writeOutcome_tpAns (o : Bool) (k : ErrKind) (c : SuccKind) (s : State) : (writeOutcome o k c s).tpAns = s.tpAns := rfl
@[simp] theorem writeOutcome_tpFault (o : Bool) (k : ErrKind) (c : SuccKind) (s : State) : (writeOutcome o k c s).tpFault = s.tpFault := rfl
@[simp] theorem writeOutcome_resetHeld (o : Bool) (k : ErrKind) (c : SuccKind) (s : State) : (writeOutcome o k c s).resetHeld = s.resetHeld := rfl
@[simp] theorem writeOutcome_txStream (o : Bool) (k : ErrKind) (c : SuccKind) (s : State) : (writeOutcome o k c s).txStream = s.txStream := rfl
@[simp] theorem writeOutcome_rxStream (o : Bool) (k : ErrKind) (c : SuccKind) (s : State) : (writeOutcome o k c s).rxStream = s.rxStream := rfl
@[simp] theorem writeOutcome_script (o : Bool) (k : ErrKind) (c : SuccKind) (s : State) : (writeOutcome o k c s).script = s.script := rfl
@[simp] theorem writeOutcome_rdata (o : Bool) (k : ErrKind) (c : SuccKind) (s : State) : (writeOutcome o k c s).rdata = s.rdata := rfl
@[simp] theorem writeOutcome_freeCtr (o : Bool) (k : ErrKind) (c : SuccKind) (s : State) : (writeOutcome o k c s).freeCtr = s.freeCtr := rfl
@[simp] theorem writeOutcome_epoch (o : Bool) (k : ErrKind) (c : SuccKind) (s : State) : (writeOutcome o k c s).epoch = s.epoch := rfl

/-! ### `commandWhileBusy` -/

@[simp] theorem commandWhileBusy_cmd (s : State) : (commandWhileBusy s).cmd = s.cmd := rfl
@[simp] theorem commandWhileBusy_payload (s : State) : (commandWhileBusy s).payload = s.payload := rfl
@[simp] theorem commandWhileBusy_plen (s : State) : (commandWhileBusy s).plen = s.plen := rfl
@[simp] theorem commandWhileBusy_expbytes (s : State) : (commandWhileBusy s).expbytes = s.expbytes := rfl
@[simp] theorem commandWhileBusy_rdto (s : State) : (commandWhileBusy s).rdto = s.rdto := rfl
@[simp] theorem commandWhileBusy_cp (s : State) : (commandWhileBusy s).cp = s.cp := rfl
@[simp] theorem commandWhileBusy_vpfx (s : State) : (commandWhileBusy s).vpfx = s.vpfx := rfl
@[simp] theorem commandWhileBusy_vplen (s : State) : (commandWhileBusy s).vplen = s.vplen := rfl
@[simp] theorem commandWhileBusy_vpfxen (s : State) : (commandWhileBusy s).vpfxen = s.vpfxen := rfl
@[simp] theorem commandWhileBusy_vsub (s : State) : (commandWhileBusy s).vsub = s.vsub := rfl
@[simp] theorem commandWhileBusy_vslen (s : State) : (commandWhileBusy s).vslen = s.vslen := rfl
@[simp] theorem commandWhileBusy_vsuben (s : State) : (commandWhileBusy s).vsuben = s.vsuben := rfl
@[simp] theorem commandWhileBusy_cfg (s : State) : (commandWhileBusy s).cfg = s.cfg := rfl
@[simp] theorem commandWhileBusy_l (s : State) : (commandWhileBusy s).l = s.l := rfl
@[simp] theorem commandWhileBusy_st (s : State) : (commandWhileBusy s).st = s.st := rfl
@[simp] theorem commandWhileBusy_attempt (s : State) : (commandWhileBusy s).attempt = s.attempt := rfl
@[simp] theorem commandWhileBusy_natt (s : State) : (commandWhileBusy s).natt = s.natt := rfl
@[simp] theorem commandWhileBusy_lastErr (s : State) : (commandWhileBusy s).lastErr = s.lastErr := rfl
@[simp] theorem commandWhileBusy_txi (s : State) : (commandWhileBusy s).txi = s.txi := rfl
@[simp] theorem commandWhileBusy_t0 (s : State) : (commandWhileBusy s).t0 = s.t0 := rfl
@[simp] theorem commandWhileBusy_dl (s : State) : (commandWhileBusy s).dl = s.dl := rfl
@[simp] theorem commandWhileBusy_qdl (s : State) : (commandWhileBusy s).qdl = s.qdl := rfl
@[simp] theorem commandWhileBusy_frame (s : State) : (commandWhileBusy s).frame = s.frame := rfl
@[simp] theorem commandWhileBusy_flen (s : State) : (commandWhileBusy s).flen = s.flen := rfl
@[simp] theorem commandWhileBusy_trace (s : State) : (commandWhileBusy s).trace = s.trace := rfl
@[simp] theorem commandWhileBusy_tlen (s : State) : (commandWhileBusy s).tlen = s.tlen := rfl
@[simp] theorem commandWhileBusy_rxq (s : State) : (commandWhileBusy s).rxq = s.rxq := rfl
@[simp] theorem commandWhileBusy_ok (s : State) : (commandWhileBusy s).ok = s.ok := rfl
@[simp] theorem commandWhileBusy_errkind (s : State) : (commandWhileBusy s).errkind = s.errkind := rfl
@[simp] theorem commandWhileBusy_succkind (s : State) : (commandWhileBusy s).succkind = s.succkind := rfl
@[simp] theorem commandWhileBusy_elapsed (s : State) : (commandWhileBusy s).elapsed = s.elapsed := rfl
@[simp] theorem commandWhileBusy_attempts (s : State) : (commandWhileBusy s).attempts = s.attempts := rfl
@[simp] theorem commandWhileBusy_expn (s : State) : (commandWhileBusy s).expn = s.expn := rfl
@[simp] theorem commandWhileBusy_gotn (s : State) : (commandWhileBusy s).gotn = s.gotn := rfl
@[simp] theorem commandWhileBusy_ck (s : State) : (commandWhileBusy s).ck = s.ck := rfl
@[simp] theorem commandWhileBusy_derr (s : State) : (commandWhileBusy s).derr = s.derr := rfl
@[simp] theorem commandWhileBusy_vres (s : State) : (commandWhileBusy s).vres = s.vres := rfl
@[simp] theorem commandWhileBusy_busy (s : State) : (commandWhileBusy s).busy = s.busy := rfl
@[simp] theorem commandWhileBusy_done (s : State) : (commandWhileBusy s).done = s.done := rfl
@[simp] theorem commandWhileBusy_cmderr (s : State) : (commandWhileBusy s).cmderr = true := rfl
@[simp] theorem commandWhileBusy_cfgmiss (s : State) : (commandWhileBusy s).cfgmiss = s.cfgmiss := rfl
@[simp] theorem commandWhileBusy_owned (s : State) : (commandWhileBusy s).owned = s.owned := rfl
@[simp] theorem commandWhileBusy_rxovr (s : State) : (commandWhileBusy s).rxovr = s.rxovr := rfl
@[simp] theorem commandWhileBusy_ctlLine (s : State) : (commandWhileBusy s).ctlLine = s.ctlLine := rfl
@[simp] theorem commandWhileBusy_tpReq (s : State) : (commandWhileBusy s).tpReq = s.tpReq := rfl
@[simp] theorem commandWhileBusy_txByte (s : State) : (commandWhileBusy s).txByte = s.txByte := rfl
@[simp] theorem commandWhileBusy_txValid (s : State) : (commandWhileBusy s).txValid = s.txValid := rfl
@[simp] theorem commandWhileBusy_evt (s : State) : (commandWhileBusy s).evt = s.evt := rfl
@[simp] theorem commandWhileBusy_now (s : State) : (commandWhileBusy s).now = s.now := rfl
@[simp] theorem commandWhileBusy_txReady (s : State) : (commandWhileBusy s).txReady = s.txReady := rfl
@[simp] theorem commandWhileBusy_tpAns (s : State) : (commandWhileBusy s).tpAns = s.tpAns := rfl
@[simp] theorem commandWhileBusy_tpFault (s : State) : (commandWhileBusy s).tpFault = s.tpFault := rfl
@[simp] theorem commandWhileBusy_resetHeld (s : State) : (commandWhileBusy s).resetHeld = s.resetHeld := rfl
@[simp] theorem commandWhileBusy_txStream (s : State) : (commandWhileBusy s).txStream = s.txStream := rfl
@[simp] theorem commandWhileBusy_rxStream (s : State) : (commandWhileBusy s).rxStream = s.rxStream := rfl
@[simp] theorem commandWhileBusy_script (s : State) : (commandWhileBusy s).script = s.script := rfl
@[simp] theorem commandWhileBusy_rdata (s : State) : (commandWhileBusy s).rdata = s.rdata := rfl
@[simp] theorem commandWhileBusy_freeCtr (s : State) : (commandWhileBusy s).freeCtr = s.freeCtr := rfl
@[simp] theorem commandWhileBusy_epoch (s : State) : (commandWhileBusy s).epoch = s.epoch := rfl

/-! ### `takeCommand` -/

@[simp] theorem takeCommand_cmd (c : Byte) (s : State) : (takeCommand c s).cmd = c := rfl
@[simp] theorem takeCommand_payload (c : Byte) (s : State) : (takeCommand c s).payload = s.payload := rfl
@[simp] theorem takeCommand_plen (c : Byte) (s : State) : (takeCommand c s).plen = s.plen := rfl
@[simp] theorem takeCommand_expbytes (c : Byte) (s : State) : (takeCommand c s).expbytes = s.expbytes := rfl
@[simp] theorem takeCommand_rdto (c : Byte) (s : State) : (takeCommand c s).rdto = s.rdto := rfl
@[simp] theorem takeCommand_cp (c : Byte) (s : State) : (takeCommand c s).cp = s.cp := rfl
@[simp] theorem takeCommand_vpfx (c : Byte) (s : State) : (takeCommand c s).vpfx = s.vpfx := rfl
@[simp] theorem takeCommand_vplen (c : Byte) (s : State) : (takeCommand c s).vplen = s.vplen := rfl
@[simp] theorem takeCommand_vpfxen (c : Byte) (s : State) : (takeCommand c s).vpfxen = s.vpfxen := rfl
@[simp] theorem takeCommand_vsub (c : Byte) (s : State) : (takeCommand c s).vsub = s.vsub := rfl
@[simp] theorem takeCommand_vslen (c : Byte) (s : State) : (takeCommand c s).vslen = s.vslen := rfl
@[simp] theorem takeCommand_vsuben (c : Byte) (s : State) : (takeCommand c s).vsuben = s.vsuben := rfl
@[simp] theorem takeCommand_cfg (c : Byte) (s : State) : (takeCommand c s).cfg = s.cfg := rfl
@[simp] theorem takeCommand_l (c : Byte) (s : State) : (takeCommand c s).l = s.l := rfl
@[simp] theorem takeCommand_st (c : Byte) (s : State) : (takeCommand c s).st = s.st := rfl
@[simp] theorem takeCommand_attempt (c : Byte) (s : State) : (takeCommand c s).attempt = s.attempt := rfl
@[simp] theorem takeCommand_natt (c : Byte) (s : State) : (takeCommand c s).natt = s.natt := rfl
@[simp] theorem takeCommand_lastErr (c : Byte) (s : State) : (takeCommand c s).lastErr = s.lastErr := rfl
@[simp] theorem takeCommand_txi (c : Byte) (s : State) : (takeCommand c s).txi = s.txi := rfl
@[simp] theorem takeCommand_t0 (c : Byte) (s : State) : (takeCommand c s).t0 = s.t0 := rfl
@[simp] theorem takeCommand_dl (c : Byte) (s : State) : (takeCommand c s).dl = s.dl := rfl
@[simp] theorem takeCommand_qdl (c : Byte) (s : State) : (takeCommand c s).qdl = s.qdl := rfl
@[simp] theorem takeCommand_frame (c : Byte) (s : State) : (takeCommand c s).frame = s.frame := rfl
@[simp] theorem takeCommand_flen (c : Byte) (s : State) : (takeCommand c s).flen = s.flen := rfl
@[simp] theorem takeCommand_trace (c : Byte) (s : State) : (takeCommand c s).trace = s.trace := rfl
@[simp] theorem takeCommand_tlen (c : Byte) (s : State) : (takeCommand c s).tlen = s.tlen := rfl
@[simp] theorem takeCommand_rxq (c : Byte) (s : State) : (takeCommand c s).rxq = s.rxq := rfl
@[simp] theorem takeCommand_ok (c : Byte) (s : State) : (takeCommand c s).ok = s.ok := rfl
@[simp] theorem takeCommand_errkind (c : Byte) (s : State) : (takeCommand c s).errkind = s.errkind := rfl
@[simp] theorem takeCommand_succkind (c : Byte) (s : State) : (takeCommand c s).succkind = s.succkind := rfl
@[simp] theorem takeCommand_elapsed (c : Byte) (s : State) : (takeCommand c s).elapsed = s.elapsed := rfl
@[simp] theorem takeCommand_attempts (c : Byte) (s : State) : (takeCommand c s).attempts = s.attempts := rfl
@[simp] theorem takeCommand_expn (c : Byte) (s : State) : (takeCommand c s).expn = s.expn := rfl
@[simp] theorem takeCommand_gotn (c : Byte) (s : State) : (takeCommand c s).gotn = s.gotn := rfl
@[simp] theorem takeCommand_ck (c : Byte) (s : State) : (takeCommand c s).ck = s.ck := rfl
@[simp] theorem takeCommand_derr (c : Byte) (s : State) : (takeCommand c s).derr = s.derr := rfl
@[simp] theorem takeCommand_vres (c : Byte) (s : State) : (takeCommand c s).vres = s.vres := rfl
@[simp] theorem takeCommand_busy (c : Byte) (s : State) : (takeCommand c s).busy = s.busy := rfl
@[simp] theorem takeCommand_done (c : Byte) (s : State) : (takeCommand c s).done = false := rfl
@[simp] theorem takeCommand_cmderr (c : Byte) (s : State) : (takeCommand c s).cmderr = s.cmderr := rfl
@[simp] theorem takeCommand_cfgmiss (c : Byte) (s : State) : (takeCommand c s).cfgmiss = s.cfgmiss := rfl
@[simp] theorem takeCommand_owned (c : Byte) (s : State) : (takeCommand c s).owned = s.owned := rfl
@[simp] theorem takeCommand_rxovr (c : Byte) (s : State) : (takeCommand c s).rxovr = s.rxovr := rfl
@[simp] theorem takeCommand_ctlLine (c : Byte) (s : State) : (takeCommand c s).ctlLine = s.ctlLine := rfl
@[simp] theorem takeCommand_tpReq (c : Byte) (s : State) : (takeCommand c s).tpReq = s.tpReq := rfl
@[simp] theorem takeCommand_txByte (c : Byte) (s : State) : (takeCommand c s).txByte = s.txByte := rfl
@[simp] theorem takeCommand_txValid (c : Byte) (s : State) : (takeCommand c s).txValid = s.txValid := rfl
@[simp] theorem takeCommand_evt (c : Byte) (s : State) : (takeCommand c s).evt = s.evt := rfl
@[simp] theorem takeCommand_now (c : Byte) (s : State) : (takeCommand c s).now = s.now := rfl
@[simp] theorem takeCommand_txReady (c : Byte) (s : State) : (takeCommand c s).txReady = s.txReady := rfl
@[simp] theorem takeCommand_tpAns (c : Byte) (s : State) : (takeCommand c s).tpAns = s.tpAns := rfl
@[simp] theorem takeCommand_tpFault (c : Byte) (s : State) : (takeCommand c s).tpFault = s.tpFault := rfl
@[simp] theorem takeCommand_resetHeld (c : Byte) (s : State) : (takeCommand c s).resetHeld = s.resetHeld := rfl
@[simp] theorem takeCommand_txStream (c : Byte) (s : State) : (takeCommand c s).txStream = s.txStream := rfl
@[simp] theorem takeCommand_rxStream (c : Byte) (s : State) : (takeCommand c s).rxStream = s.rxStream := rfl
@[simp] theorem takeCommand_script (c : Byte) (s : State) : (takeCommand c s).script = s.script := rfl
@[simp] theorem takeCommand_rdata (c : Byte) (s : State) : (takeCommand c s).rdata = s.rdata := rfl
@[simp] theorem takeCommand_freeCtr (c : Byte) (s : State) : (takeCommand c s).freeCtr = s.freeCtr := rfl
@[simp] theorem takeCommand_epoch (c : Byte) (s : State) : (takeCommand c s).epoch = s.epoch := rfl

/-! ### `refuse` -/

@[simp] theorem refuse_cmd (s : State) : (refuse s).cmd = s.cmd := rfl
@[simp] theorem refuse_payload (s : State) : (refuse s).payload = s.payload := rfl
@[simp] theorem refuse_plen (s : State) : (refuse s).plen = s.plen := rfl
@[simp] theorem refuse_expbytes (s : State) : (refuse s).expbytes = s.expbytes := rfl
@[simp] theorem refuse_rdto (s : State) : (refuse s).rdto = s.rdto := rfl
@[simp] theorem refuse_cp (s : State) : (refuse s).cp = s.cp := rfl
@[simp] theorem refuse_vpfx (s : State) : (refuse s).vpfx = s.vpfx := rfl
@[simp] theorem refuse_vplen (s : State) : (refuse s).vplen = s.vplen := rfl
@[simp] theorem refuse_vpfxen (s : State) : (refuse s).vpfxen = s.vpfxen := rfl
@[simp] theorem refuse_vsub (s : State) : (refuse s).vsub = s.vsub := rfl
@[simp] theorem refuse_vslen (s : State) : (refuse s).vslen = s.vslen := rfl
@[simp] theorem refuse_vsuben (s : State) : (refuse s).vsuben = s.vsuben := rfl
@[simp] theorem refuse_cfg (s : State) : (refuse s).cfg = s.cfg := rfl
@[simp] theorem refuse_l (s : State) : (refuse s).l = s.l := rfl
@[simp] theorem refuse_st (s : State) : (refuse s).st = s.st := rfl
@[simp] theorem refuse_attempt (s : State) : (refuse s).attempt = s.attempt := rfl
@[simp] theorem refuse_natt (s : State) : (refuse s).natt = s.natt := rfl
@[simp] theorem refuse_lastErr (s : State) : (refuse s).lastErr = s.lastErr := rfl
@[simp] theorem refuse_txi (s : State) : (refuse s).txi = s.txi := rfl
@[simp] theorem refuse_t0 (s : State) : (refuse s).t0 = s.t0 := rfl
@[simp] theorem refuse_dl (s : State) : (refuse s).dl = s.dl := rfl
@[simp] theorem refuse_qdl (s : State) : (refuse s).qdl = s.qdl := rfl
@[simp] theorem refuse_frame (s : State) : (refuse s).frame = s.frame := rfl
@[simp] theorem refuse_flen (s : State) : (refuse s).flen = s.flen := rfl
@[simp] theorem refuse_trace (s : State) : (refuse s).trace = s.trace := rfl
@[simp] theorem refuse_tlen (s : State) : (refuse s).tlen = s.tlen := rfl
@[simp] theorem refuse_rxq (s : State) : (refuse s).rxq = s.rxq := rfl
@[simp] theorem refuse_ok (s : State) : (refuse s).ok = s.ok := rfl
@[simp] theorem refuse_errkind (s : State) : (refuse s).errkind = s.errkind := rfl
@[simp] theorem refuse_succkind (s : State) : (refuse s).succkind = s.succkind := rfl
@[simp] theorem refuse_elapsed (s : State) : (refuse s).elapsed = s.elapsed := rfl
@[simp] theorem refuse_attempts (s : State) : (refuse s).attempts = s.attempts := rfl
@[simp] theorem refuse_expn (s : State) : (refuse s).expn = s.expn := rfl
@[simp] theorem refuse_gotn (s : State) : (refuse s).gotn = s.gotn := rfl
@[simp] theorem refuse_ck (s : State) : (refuse s).ck = s.ck := rfl
@[simp] theorem refuse_derr (s : State) : (refuse s).derr = s.derr := rfl
@[simp] theorem refuse_vres (s : State) : (refuse s).vres = s.vres := rfl
@[simp] theorem refuse_busy (s : State) : (refuse s).busy = s.busy := rfl
@[simp] theorem refuse_done (s : State) : (refuse s).done = s.done := rfl
@[simp] theorem refuse_cmderr (s : State) : (refuse s).cmderr = true := rfl
@[simp] theorem refuse_cfgmiss (s : State) : (refuse s).cfgmiss = false := rfl
@[simp] theorem refuse_owned (s : State) : (refuse s).owned = s.owned := rfl
@[simp] theorem refuse_rxovr (s : State) : (refuse s).rxovr = s.rxovr := rfl
@[simp] theorem refuse_ctlLine (s : State) : (refuse s).ctlLine = s.ctlLine := rfl
@[simp] theorem refuse_tpReq (s : State) : (refuse s).tpReq = s.tpReq := rfl
@[simp] theorem refuse_txByte (s : State) : (refuse s).txByte = s.txByte := rfl
@[simp] theorem refuse_txValid (s : State) : (refuse s).txValid = s.txValid := rfl
@[simp] theorem refuse_evt (s : State) : (refuse s).evt = s.evt := rfl
@[simp] theorem refuse_now (s : State) : (refuse s).now = s.now := rfl
@[simp] theorem refuse_txReady (s : State) : (refuse s).txReady = s.txReady := rfl
@[simp] theorem refuse_tpAns (s : State) : (refuse s).tpAns = s.tpAns := rfl
@[simp] theorem refuse_tpFault (s : State) : (refuse s).tpFault = s.tpFault := rfl
@[simp] theorem refuse_resetHeld (s : State) : (refuse s).resetHeld = s.resetHeld := rfl
@[simp] theorem refuse_txStream (s : State) : (refuse s).txStream = s.txStream := rfl
@[simp] theorem refuse_rxStream (s : State) : (refuse s).rxStream = s.rxStream := rfl
@[simp] theorem refuse_script (s : State) : (refuse s).script = s.script := rfl
@[simp] theorem refuse_rdata (s : State) : (refuse s).rdata = s.rdata := rfl
@[simp] theorem refuse_freeCtr (s : State) : (refuse s).freeCtr = s.freeCtr := rfl
@[simp] theorem refuse_epoch (s : State) : (refuse s).epoch = s.epoch := rfl

/-! ### `configMissing` -/

@[simp] theorem configMissing_cmd (s : State) : (configMissing s).cmd = s.cmd := rfl
@[simp] theorem configMissing_payload (s : State) : (configMissing s).payload = s.payload := rfl
@[simp] theorem configMissing_plen (s : State) : (configMissing s).plen = s.plen := rfl
@[simp] theorem configMissing_expbytes (s : State) : (configMissing s).expbytes = s.expbytes := rfl
@[simp] theorem configMissing_rdto (s : State) : (configMissing s).rdto = s.rdto := rfl
@[simp] theorem configMissing_cp (s : State) : (configMissing s).cp = s.cp := rfl
@[simp] theorem configMissing_vpfx (s : State) : (configMissing s).vpfx = s.vpfx := rfl
@[simp] theorem configMissing_vplen (s : State) : (configMissing s).vplen = s.vplen := rfl
@[simp] theorem configMissing_vpfxen (s : State) : (configMissing s).vpfxen = s.vpfxen := rfl
@[simp] theorem configMissing_vsub (s : State) : (configMissing s).vsub = s.vsub := rfl
@[simp] theorem configMissing_vslen (s : State) : (configMissing s).vslen = s.vslen := rfl
@[simp] theorem configMissing_vsuben (s : State) : (configMissing s).vsuben = s.vsuben := rfl
@[simp] theorem configMissing_cfg (s : State) : (configMissing s).cfg = s.cfg := rfl
@[simp] theorem configMissing_l (s : State) : (configMissing s).l = s.l := rfl
@[simp] theorem configMissing_st (s : State) : (configMissing s).st = s.st := rfl
@[simp] theorem configMissing_attempt (s : State) : (configMissing s).attempt = s.attempt := rfl
@[simp] theorem configMissing_natt (s : State) : (configMissing s).natt = s.natt := rfl
@[simp] theorem configMissing_lastErr (s : State) : (configMissing s).lastErr = s.lastErr := rfl
@[simp] theorem configMissing_txi (s : State) : (configMissing s).txi = s.txi := rfl
@[simp] theorem configMissing_t0 (s : State) : (configMissing s).t0 = s.t0 := rfl
@[simp] theorem configMissing_dl (s : State) : (configMissing s).dl = s.dl := rfl
@[simp] theorem configMissing_qdl (s : State) : (configMissing s).qdl = s.qdl := rfl
@[simp] theorem configMissing_frame (s : State) : (configMissing s).frame = s.frame := rfl
@[simp] theorem configMissing_flen (s : State) : (configMissing s).flen = s.flen := rfl
@[simp] theorem configMissing_trace (s : State) : (configMissing s).trace = s.trace := rfl
@[simp] theorem configMissing_tlen (s : State) : (configMissing s).tlen = s.tlen := rfl
@[simp] theorem configMissing_rxq (s : State) : (configMissing s).rxq = s.rxq := rfl
@[simp] theorem configMissing_ok (s : State) : (configMissing s).ok = s.ok := rfl
@[simp] theorem configMissing_errkind (s : State) : (configMissing s).errkind = s.errkind := rfl
@[simp] theorem configMissing_succkind (s : State) : (configMissing s).succkind = s.succkind := rfl
@[simp] theorem configMissing_elapsed (s : State) : (configMissing s).elapsed = s.elapsed := rfl
@[simp] theorem configMissing_attempts (s : State) : (configMissing s).attempts = s.attempts := rfl
@[simp] theorem configMissing_expn (s : State) : (configMissing s).expn = s.expn := rfl
@[simp] theorem configMissing_gotn (s : State) : (configMissing s).gotn = s.gotn := rfl
@[simp] theorem configMissing_ck (s : State) : (configMissing s).ck = s.ck := rfl
@[simp] theorem configMissing_derr (s : State) : (configMissing s).derr = s.derr := rfl
@[simp] theorem configMissing_vres (s : State) : (configMissing s).vres = s.vres := rfl
@[simp] theorem configMissing_busy (s : State) : (configMissing s).busy = s.busy := rfl
@[simp] theorem configMissing_done (s : State) : (configMissing s).done = s.done := rfl
@[simp] theorem configMissing_cmderr (s : State) : (configMissing s).cmderr = false := rfl
@[simp] theorem configMissing_cfgmiss (s : State) : (configMissing s).cfgmiss = true := rfl
@[simp] theorem configMissing_owned (s : State) : (configMissing s).owned = s.owned := rfl
@[simp] theorem configMissing_rxovr (s : State) : (configMissing s).rxovr = s.rxovr := rfl
@[simp] theorem configMissing_ctlLine (s : State) : (configMissing s).ctlLine = s.ctlLine := rfl
@[simp] theorem configMissing_tpReq (s : State) : (configMissing s).tpReq = s.tpReq := rfl
@[simp] theorem configMissing_txByte (s : State) : (configMissing s).txByte = s.txByte := rfl
@[simp] theorem configMissing_txValid (s : State) : (configMissing s).txValid = s.txValid := rfl
@[simp] theorem configMissing_evt (s : State) : (configMissing s).evt = s.evt := rfl
@[simp] theorem configMissing_now (s : State) : (configMissing s).now = s.now := rfl
@[simp] theorem configMissing_txReady (s : State) : (configMissing s).txReady = s.txReady := rfl
@[simp] theorem configMissing_tpAns (s : State) : (configMissing s).tpAns = s.tpAns := rfl
@[simp] theorem configMissing_tpFault (s : State) : (configMissing s).tpFault = s.tpFault := rfl
@[simp] theorem configMissing_resetHeld (s : State) : (configMissing s).resetHeld = s.resetHeld := rfl
@[simp] theorem configMissing_txStream (s : State) : (configMissing s).txStream = s.txStream := rfl
@[simp] theorem configMissing_rxStream (s : State) : (configMissing s).rxStream = s.rxStream := rfl
@[simp] theorem configMissing_script (s : State) : (configMissing s).script = s.script := rfl
@[simp] theorem configMissing_rdata (s : State) : (configMissing s).rdata = s.rdata := rfl
@[simp] theorem configMissing_freeCtr (s : State) : (configMissing s).freeCtr = s.freeCtr := rfl
@[simp] theorem configMissing_epoch (s : State) : (configMissing s).epoch = s.epoch := rfl

/-! ### `accept` -/

@[simp] theorem accept_cmd (s : State) : (accept s).cmd = s.cmd := rfl
@[simp] theorem accept_payload (s : State) : (accept s).payload = s.payload := rfl
@[simp] theorem accept_plen (s : State) : (accept s).plen = s.plen := rfl
@[simp] theorem accept_expbytes (s : State) : (accept s).expbytes = s.expbytes := rfl
@[simp] theorem accept_rdto (s : State) : (accept s).rdto = s.rdto := rfl
@[simp] theorem accept_cp (s : State) : (accept s).cp = s.cp := rfl
@[simp] theorem accept_vpfx (s : State) : (accept s).vpfx = s.vpfx := rfl
@[simp] theorem accept_vplen (s : State) : (accept s).vplen = s.vplen := rfl
@[simp] theorem accept_vpfxen (s : State) : (accept s).vpfxen = s.vpfxen := rfl
@[simp] theorem accept_vsub (s : State) : (accept s).vsub = s.vsub := rfl
@[simp] theorem accept_vslen (s : State) : (accept s).vslen = s.vslen := rfl
@[simp] theorem accept_vsuben (s : State) : (accept s).vsuben = s.vsuben := rfl
@[simp] theorem accept_cfg (s : State) : (accept s).cfg = s.cfg := rfl
@[simp] theorem accept_l (s : State) : (accept s).l = s.l := rfl
@[simp] theorem accept_st (s : State) : (accept s).st = s.st := rfl
@[simp] theorem accept_attempt (s : State) : (accept s).attempt = s.attempt := rfl
@[simp] theorem accept_natt (s : State) : (accept s).natt = s.natt := rfl
@[simp] theorem accept_lastErr (s : State) : (accept s).lastErr = s.lastErr := rfl
@[simp] theorem accept_txi (s : State) : (accept s).txi = s.txi := rfl
@[simp] theorem accept_t0 (s : State) : (accept s).t0 = s.t0 := rfl
@[simp] theorem accept_dl (s : State) : (accept s).dl = s.dl := rfl
@[simp] theorem accept_qdl (s : State) : (accept s).qdl = s.qdl := rfl
@[simp] theorem accept_frame (s : State) : (accept s).frame = s.frame := rfl
@[simp] theorem accept_flen (s : State) : (accept s).flen = s.flen := rfl
@[simp] theorem accept_trace (s : State) : (accept s).trace = s.trace := rfl
@[simp] theorem accept_tlen (s : State) : (accept s).tlen = s.tlen := rfl
@[simp] theorem accept_rxq (s : State) : (accept s).rxq = s.rxq := rfl
@[simp] theorem accept_ok (s : State) : (accept s).ok = s.ok := rfl
@[simp] theorem accept_errkind (s : State) : (accept s).errkind = s.errkind := rfl
@[simp] theorem accept_succkind (s : State) : (accept s).succkind = s.succkind := rfl
@[simp] theorem accept_elapsed (s : State) : (accept s).elapsed = s.elapsed := rfl
@[simp] theorem accept_attempts (s : State) : (accept s).attempts = s.attempts := rfl
@[simp] theorem accept_expn (s : State) : (accept s).expn = s.expn := rfl
@[simp] theorem accept_gotn (s : State) : (accept s).gotn = s.gotn := rfl
@[simp] theorem accept_ck (s : State) : (accept s).ck = s.ck := rfl
@[simp] theorem accept_derr (s : State) : (accept s).derr = s.derr := rfl
@[simp] theorem accept_vres (s : State) : (accept s).vres = s.vres := rfl
@[simp] theorem accept_busy (s : State) : (accept s).busy = s.busy := rfl
@[simp] theorem accept_done (s : State) : (accept s).done = s.done := rfl
@[simp] theorem accept_cmderr (s : State) : (accept s).cmderr = false := rfl
@[simp] theorem accept_cfgmiss (s : State) : (accept s).cfgmiss = false := rfl
@[simp] theorem accept_owned (s : State) : (accept s).owned = s.owned := rfl
@[simp] theorem accept_rxovr (s : State) : (accept s).rxovr = s.rxovr := rfl
@[simp] theorem accept_ctlLine (s : State) : (accept s).ctlLine = s.ctlLine := rfl
@[simp] theorem accept_tpReq (s : State) : (accept s).tpReq = s.tpReq := rfl
@[simp] theorem accept_txByte (s : State) : (accept s).txByte = s.txByte := rfl
@[simp] theorem accept_txValid (s : State) : (accept s).txValid = s.txValid := rfl
@[simp] theorem accept_evt (s : State) : (accept s).evt = s.evt := rfl
@[simp] theorem accept_now (s : State) : (accept s).now = s.now := rfl
@[simp] theorem accept_txReady (s : State) : (accept s).txReady = s.txReady := rfl
@[simp] theorem accept_tpAns (s : State) : (accept s).tpAns = s.tpAns := rfl
@[simp] theorem accept_tpFault (s : State) : (accept s).tpFault = s.tpFault := rfl
@[simp] theorem accept_resetHeld (s : State) : (accept s).resetHeld = s.resetHeld := rfl
@[simp] theorem accept_txStream (s : State) : (accept s).txStream = s.txStream := rfl
@[simp] theorem accept_rxStream (s : State) : (accept s).rxStream = s.rxStream := rfl
@[simp] theorem accept_script (s : State) : (accept s).script = s.script := rfl
@[simp] theorem accept_rdata (s : State) : (accept s).rdata = s.rdata := rfl
@[simp] theorem accept_freeCtr (s : State) : (accept s).freeCtr = s.freeCtr := rfl
@[simp] theorem accept_epoch (s : State) : (accept s).epoch = s.epoch := rfl

/-! ### `complete` -/

@[simp] theorem complete_cmd (s : State) : (complete s).cmd = s.cmd := rfl
@[simp] theorem complete_payload (s : State) : (complete s).payload = s.payload := rfl
@[simp] theorem complete_plen (s : State) : (complete s).plen = s.plen := rfl
@[simp] theorem complete_expbytes (s : State) : (complete s).expbytes = s.expbytes := rfl
@[simp] theorem complete_rdto (s : State) : (complete s).rdto = s.rdto := rfl
@[simp] theorem complete_cp (s : State) : (complete s).cp = s.cp := rfl
@[simp] theorem complete_vpfx (s : State) : (complete s).vpfx = s.vpfx := rfl
@[simp] theorem complete_vplen (s : State) : (complete s).vplen = s.vplen := rfl
@[simp] theorem complete_vpfxen (s : State) : (complete s).vpfxen = s.vpfxen := rfl
@[simp] theorem complete_vsub (s : State) : (complete s).vsub = s.vsub := rfl
@[simp] theorem complete_vslen (s : State) : (complete s).vslen = s.vslen := rfl
@[simp] theorem complete_vsuben (s : State) : (complete s).vsuben = s.vsuben := rfl
@[simp] theorem complete_cfg (s : State) : (complete s).cfg = s.cfg := rfl
@[simp] theorem complete_l (s : State) : (complete s).l = s.l := rfl
@[simp] theorem complete_st (s : State) : (complete s).st = s.st := rfl
@[simp] theorem complete_attempt (s : State) : (complete s).attempt = s.attempt := rfl
@[simp] theorem complete_natt (s : State) : (complete s).natt = s.natt := rfl
@[simp] theorem complete_lastErr (s : State) : (complete s).lastErr = s.lastErr := rfl
@[simp] theorem complete_txi (s : State) : (complete s).txi = s.txi := rfl
@[simp] theorem complete_t0 (s : State) : (complete s).t0 = s.t0 := rfl
@[simp] theorem complete_dl (s : State) : (complete s).dl = s.dl := rfl
@[simp] theorem complete_qdl (s : State) : (complete s).qdl = s.qdl := rfl
@[simp] theorem complete_frame (s : State) : (complete s).frame = s.frame := rfl
@[simp] theorem complete_flen (s : State) : (complete s).flen = s.flen := rfl
@[simp] theorem complete_trace (s : State) : (complete s).trace = s.trace := rfl
@[simp] theorem complete_tlen (s : State) : (complete s).tlen = s.tlen := rfl
@[simp] theorem complete_rxq (s : State) : (complete s).rxq = s.rxq := rfl
@[simp] theorem complete_ok (s : State) : (complete s).ok = s.ok := rfl
@[simp] theorem complete_errkind (s : State) : (complete s).errkind = s.errkind := rfl
@[simp] theorem complete_succkind (s : State) : (complete s).succkind = s.succkind := rfl
@[simp] theorem complete_elapsed (s : State) : (complete s).elapsed = s.elapsed := rfl
@[simp] theorem complete_attempts (s : State) : (complete s).attempts = s.attempts := rfl
@[simp] theorem complete_expn (s : State) : (complete s).expn = s.expn := rfl
@[simp] theorem complete_gotn (s : State) : (complete s).gotn = s.gotn := rfl
@[simp] theorem complete_ck (s : State) : (complete s).ck = s.ck := rfl
@[simp] theorem complete_derr (s : State) : (complete s).derr = s.derr := rfl
@[simp] theorem complete_vres (s : State) : (complete s).vres = s.vres := rfl
@[simp] theorem complete_busy (s : State) : (complete s).busy = s.busy := rfl
@[simp] theorem complete_done (s : State) : (complete s).done = true := rfl
@[simp] theorem complete_cmderr (s : State) : (complete s).cmderr = s.cmderr := rfl
@[simp] theorem complete_cfgmiss (s : State) : (complete s).cfgmiss = s.cfgmiss := rfl
@[simp] theorem complete_owned (s : State) : (complete s).owned = s.owned := rfl
@[simp] theorem complete_rxovr (s : State) : (complete s).rxovr = s.rxovr := rfl
@[simp] theorem complete_ctlLine (s : State) : (complete s).ctlLine = s.ctlLine := rfl
@[simp] theorem complete_tpReq (s : State) : (complete s).tpReq = s.tpReq := rfl
@[simp] theorem complete_txByte (s : State) : (complete s).txByte = s.txByte := rfl
@[simp] theorem complete_txValid (s : State) : (complete s).txValid = s.txValid := rfl
@[simp] theorem complete_evt (s : State) : (complete s).evt = s.evt := rfl
@[simp] theorem complete_now (s : State) : (complete s).now = s.now := rfl
@[simp] theorem complete_txReady (s : State) : (complete s).txReady = s.txReady := rfl
@[simp] theorem complete_tpAns (s : State) : (complete s).tpAns = s.tpAns := rfl
@[simp] theorem complete_tpFault (s : State) : (complete s).tpFault = s.tpFault := rfl
@[simp] theorem complete_resetHeld (s : State) : (complete s).resetHeld = s.resetHeld := rfl
@[simp] theorem complete_txStream (s : State) : (complete s).txStream = s.txStream := rfl
@[simp] theorem complete_rxStream (s : State) : (complete s).rxStream = s.rxStream := rfl
@[simp] theorem complete_script (s : State) : (complete s).script = s.script := rfl
@[simp] theorem complete_rdata (s : State) : (complete s).rdata = s.rdata := rfl
@[simp] theorem complete_freeCtr (s : State) : (complete s).freeCtr = s.freeCtr := rfl
@[simp] theorem complete_epoch (s : State) : (complete s).epoch = s.epoch := rfl

end Sys2Proof.Machine
end

