-- ==== Sys2Proof/Laws/Command.lean ====
section
/-! SUPPORT. What the write of a command can do, said once: the four ways R110 ends, the operation each instruction runs, and
`exec` as the issue of that operation. -/

namespace Sys2Proof.Machine

/-! ### Refusals (R110, R263, R268) -/

theorem refusalOf_eq_none (c : Byte) (s : State) :
    refusalOf c s = none ↔
      s.busy = false ∧ cmdOp c ≠ 6 ∧ cmdOp c ≠ 7 ∧ (cmdOp c ≤ 3 → cmdCsm c ≠ 3) ∧
      (cmdOp c = 3 → s.expbytes.toNat ≤ tmax) ∧
      (cmdOp c = 2 → framingBytes c ≤ s.flen → s.flen - framingBytes c ≤ pmax) := by
  unfold refusalOf
  split
  · simp_all
  split
  · constructor
    · intro h; cases h
    · rintro ⟨-, h6, h7, -⟩; tauto
  split
  · constructor
    · intro h; cases h
    · rintro ⟨-, -, -, h, -⟩; tauto
  split
  · constructor
    · intro h; cases h
    · rintro ⟨-, -, -, -, h, -⟩; rename_i h4; have := h h4.1; omega
  split
  · constructor
    · intro h; cases h
    · rintro ⟨-, -, -, -, -, h⟩; rename_i h5; have := h h5.1 h5.2.1; omega
  · rename_i h1 h2 h3 h4 h5
    refine ⟨fun _ => ⟨by simpa using h1, ?_, ?_, ?_, ?_, ?_⟩, fun _ => rfl⟩
    · tauto
    · tauto
    · tauto
    · intro h; by_contra h'; exact h4 ⟨h, by omega⟩
    · intro h h'; by_contra h''; exact h5 ⟨h, h', by omega⟩

theorem refusalOf_busy (c : Byte) (s : State) : refusalOf c s = some .busy ↔ s.busy = true := by
  unfold refusalOf
  constructor
  · intro h
    split at h
    · assumption
    · repeat' (split at h <;> try cases h)
  · intro h; rw [if_pos h]

/-! ### The four endings of a command write (R110) -/

theorem issueCommand_busy (c : Byte) (run : State → State) (s : State) (h : s.busy = true) :
    issueCommand c run s = commandWhileBusy s := by
  unfold issueCommand
  rw [(refusalOf_busy c s).2 h]

theorem issueCommand_refused (c : Byte) (run : State → State) (s : State) (hb : s.busy = false)
    (h : refusalOf c s ≠ none) : issueCommand c run s = refuse (takeCommand c s) := by
  unfold issueCommand
  have hnb : refusalOf c s ≠ some .busy := fun h' => by simp [(refusalOf_busy c s).1 h'] at hb
  split
  · contradiction
  · rfl
  · contradiction

theorem issueCommand_missing (c : Byte) (run : State → State) (s : State) (h : refusalOf c s = none)
    (ho : cmdOp c = 3) (hv : s.cp.valid = false) :
    issueCommand c run s = configMissing (takeCommand c s) := by
  unfold issueCommand
  simp [h, ho, hv]

theorem issueCommand_accepted (c : Byte) (run : State → State) (s : State) (h : refusalOf c s = none)
    (hv : cmdOp c = 3 → s.cp.valid = true) :
    issueCommand c run s = run (accept (takeCommand c s)) := by
  unfold issueCommand
  rw [h]
  refine if_neg (fun hm => ?_)
  simp [hv hm.1] at hm

/-- A write to `CMD` ends in one of four ways (R110): busy, refused, configuration missing, or accepted and run. -/
theorem issueCommand_cases (c : Byte) (run : State → State) (s : State) :
    (s.busy = true ∧ issueCommand c run s = commandWhileBusy s) ∨
    (s.busy = false ∧ refusalOf c s ≠ none ∧ issueCommand c run s = refuse (takeCommand c s)) ∨
    (refusalOf c s = none ∧ cmdOp c = 3 ∧ s.cp.valid = false ∧
      issueCommand c run s = configMissing (takeCommand c s)) ∨
    (refusalOf c s = none ∧ (cmdOp c = 3 → s.cp.valid = true) ∧
      issueCommand c run s = run (accept (takeCommand c s))) := by
  by_cases hb : s.busy = true
  · exact .inl ⟨hb, issueCommand_busy c run s hb⟩
  · have hb : s.busy = false := by simpa using hb
    by_cases hr : refusalOf c s = none
    · by_cases hm : cmdOp c = 3 ∧ s.cp.valid = false
      · exact .inr (.inr (.inl ⟨hr, hm.1, hm.2, issueCommand_missing c run s hr hm.1 hm.2⟩))
      · have hv : cmdOp c = 3 → s.cp.valid = true := fun ho => by
          by_contra h'; exact hm ⟨ho, by simpa using h'⟩
        exact .inr (.inr (.inr ⟨hr, hv, issueCommand_accepted c run s hr hv⟩))
    · exact .inr (.inl ⟨hb, hr, issueCommand_refused c run s hb hr⟩)

/-! ### The operation of an instruction -/

/-- The operation an exchange command runs when it is accepted. -/
def exchangeOf (c : Byte) : State → State :=
  match modeOfCsm (cmdCsm c) with
  | some m => startExchange c m
  | none => runNothing

/-- The operation each instruction runs when its command is accepted (R111). -/
def operationOf (i : Instr) : State → State :=
  match i with
  | .csumNone _ _ _ => computeChecksum .none
  | .csumXor7 _ _ _ => computeChecksum .xor7
  | .csumSum8 _ _ _ => computeChecksum .sum8
  | .buildUNone _ _ => runBuild false .none
  | .buildUXor7 _ _ => runBuild false .xor7
  | .buildUSum8 _ _ => runBuild false .sum8
  | .buildWNone _ _ => runBuild true .none
  | .buildWXor7 _ _ => runBuild true .xor7
  | .buildWSum8 _ _ => runBuild true .sum8
  | .decodeUNone _ _ => runDecode false .none
  | .decodeUXor7 _ _ => runDecode false .xor7
  | .decodeUSum8 _ _ => runDecode false .sum8
  | .decodeWNone _ _ => runDecode true .none
  | .decodeWXor7 _ _ => runDecode true .xor7
  | .decodeWSum8 _ _ => runDecode true .sum8
  | .xchgFF wrap val csm => exchangeOf (encode (.xchgFF wrap val csm))
  | .xchgN wrap val csm => exchangeOf (encode (.xchgN wrap val csm))
  | .xchgAN wrap val csm => exchangeOf (encode (.xchgAN wrap val csm))
  | .xchgAD val csm => exchangeOf (encode (.xchgAD val csm))
  | .xchgAB val csm => exchangeOf (encode (.xchgAB val csm))
  | .pfx _ => runPfx
  | .sub _ => runSub
  | .reservedOp6 _ => runNothing
  | .reservedOp7 _ => runNothing

theorem issueXchg_eq (c : Byte) (s : State) : issueXchg c s = issueCommand c (exchangeOf c) s := by
  unfold issueXchg exchangeOf
  cases modeOfCsm (cmdCsm c) <;> rfl

/-- `exec` is the write of the instruction's command byte with its operation (R110, R111). -/
theorem exec_eq (i : Instr) (s : State) : exec i s = .next (issueCommand (encode i) (operationOf i) s) := by
  cases i <;> first | rfl | exact congrArg _ (issueXchg_eq _ _)

/-! ### Fields of an encoded command byte (R106) -/

theorem cmdFields_packCmd (op : BitVec 3) (ack wrap val : Bool) (csm : BitVec 2) :
    cmdOp (packCmd op ack wrap val csm) = op ∧ cmdAck (packCmd op ack wrap val csm) = ack ∧
    cmdWrap (packCmd op ack wrap val csm) = wrap ∧ cmdVal (packCmd op ack wrap val csm) = val ∧
    cmdCsm (packCmd op ack wrap val csm) = csm := by
  revert op ack wrap val csm; decide

theorem cmdFields_packLow (op : BitVec 3) (low : BitVec 5) :
    cmdOp (packLow op low) = op ∧ cmdLow (packLow op low) = low := by
  revert op low; decide

@[simp] theorem cmdOp_packCmd (op : BitVec 3) (ack wrap val : Bool) (csm : BitVec 2) :
    cmdOp (packCmd op ack wrap val csm) = op := (cmdFields_packCmd op ack wrap val csm).1

@[simp] theorem cmdAck_packCmd (op : BitVec 3) (ack wrap val : Bool) (csm : BitVec 2) :
    cmdAck (packCmd op ack wrap val csm) = ack := (cmdFields_packCmd op ack wrap val csm).2.1

@[simp] theorem cmdWrap_packCmd (op : BitVec 3) (ack wrap val : Bool) (csm : BitVec 2) :
    cmdWrap (packCmd op ack wrap val csm) = wrap := (cmdFields_packCmd op ack wrap val csm).2.2.1

@[simp] theorem cmdVal_packCmd (op : BitVec 3) (ack wrap val : Bool) (csm : BitVec 2) :
    cmdVal (packCmd op ack wrap val csm) = val := (cmdFields_packCmd op ack wrap val csm).2.2.2.1

@[simp] theorem cmdCsm_packCmd (op : BitVec 3) (ack wrap val : Bool) (csm : BitVec 2) :
    cmdCsm (packCmd op ack wrap val csm) = csm := (cmdFields_packCmd op ack wrap val csm).2.2.2.2

@[simp] theorem cmdOp_packLow (op : BitVec 3) (low : BitVec 5) : cmdOp (packLow op low) = op :=
  (cmdFields_packLow op low).1

@[simp] theorem cmdLow_packLow (op : BitVec 3) (low : BitVec 5) : cmdLow (packLow op low) = low :=
  (cmdFields_packLow op low).2

theorem packCmd_fields (c : Byte) : packCmd (cmdOp c) (cmdAck c) (cmdWrap c) (cmdVal c) (cmdCsm c) = c := by
  revert c; decide

theorem packLow_fields (c : Byte) : packLow (cmdOp c) (cmdLow c) = c := by
  revert c; decide

end Sys2Proof.Machine
end

