-- ==== Sys2Proof/Laws/Ops.lean ====
section
/-! SUPPORT. What each shared operation can do, said once: buffer access, the append to the trace, the failure of an attempt, the
host's write and read, and the moves of the environment. -/

namespace Sys2Proof.Machine

/-! ### Buffers -/

@[simp] theorem buf_setBuf (s : State) (b b' : Buf) (m : Memory) :
    (s.setBuf b m).buf b' = if b' = b then m else s.buf b' := by
  cases b <;> cases b' <;> rfl

@[simp] theorem len_setLen (s : State) (b b' : Buf) (n : Nat) :
    (s.setLen b n).len b' = if b' = b then n else s.len b' := by
  cases b <;> cases b' <;> rfl

@[simp] theorem buf_setLen (s : State) (b b' : Buf) (n : Nat) : (s.setLen b n).buf b' = s.buf b' := by
  cases b <;> cases b' <;> rfl

@[simp] theorem len_setBuf (s : State) (b b' : Buf) (m : Memory) : (s.setBuf b m).len b' = s.len b' := by
  cases b <;> cases b' <;> rfl

/-- A written cell reads back; every other cell of every buffer reads as before. -/
theorem readCell_writeCell (s : State) (b b' : Buf) (i j : Nat) (v : Byte) :
    readCell (writeCell b i v s) b' j = if b' = b ∧ j = i then v else readCell s b' j := by
  unfold writeCell readCell
  by_cases hb : b' = b
  · subst hb
    by_cases hj : j = i
    · subst hj; simp [lookup_store_same]
    · simp [hj, lookup_store_other _ _ hj]
  · simp [hb]

/-! ### The trace -/

/-- `append` either overflows, raising without storing, or stores one byte and goes on (R161). -/
theorem append_cases (b : Byte) (rest : State → State) (s : State) :
    (s.tlen = tmax ∧ append b rest s = raise .transportFault .traceOverflow s) ∨
    (s.tlen ≠ tmax ∧ append b rest s = rest { s with trace := store s.trace s.tlen b, tlen := s.tlen + 1 }) := by
  unfold append
  by_cases h : s.tlen = tmax
  · exact .inl ⟨h, if_pos h⟩
  · exact .inr ⟨h, if_neg h⟩

/-- The bytes of the trace after an append: the old ones, then the new one. -/
theorem traceBytes_append (s t : State) (b : Byte) (hm : t.trace = store s.trace s.tlen b) (hl : t.tlen = s.tlen + 1)
    (he : t.epoch = s.epoch) : traceBytes t = traceBytes s ++ [b] := by
  unfold traceBytes
  rw [hl, bytesOf_succ]
  have hbuf : t.buf .trace = store s.trace s.tlen b := hm
  congr 1
  · apply bytesOf_congr
    intro i hi
    apply readCell_congr he
    rw [hbuf, lookup_store_other _ _ (by omega)]
    rfl
  · rw [readCell_of_lookup (v := b)]
    rw [hbuf, lookup_store_same]

/-! ### The failure of an attempt (R271) -/

theorem afterFailure_cases (s : State) :
    (s.attempt < s.natt ∧
      afterFailure s = startAttempt { release s with ctlLine := false, attempt := s.attempt + 1 }) ∨
    (¬ s.attempt < s.natt ∧
      afterFailure s = writeOutcome false s.lastErr .none { release s with ctlLine := false }) := by
  unfold afterFailure
  by_cases h : s.attempt < s.natt
  · exact .inl ⟨h, if_pos h⟩
  · exact .inr ⟨h, if_neg h⟩

/-! ### The host's port (R62, R77, R283) -/

theorem hostWrite_busy (w : HostWrite) (s : State) (h : s.busy = true) : hostWrite w s = s := by
  simp [hostWrite, h]

theorem hostWrite_free (w : HostWrite) (s : State) (h : s.busy = false) : hostWrite w s = performWrite w s := by
  simp [hostWrite, h]

/-- A read changes only the read data and, where it returns any value, the counter of free values. -/
theorem hostRead_cases (r : HostReg) (s : State) :
    (∃ v, readValue r s = some v ∧ hostRead r s = { s with rdata := v }) ∨
    (readValue r s = none ∧
      hostRead r s = { s with rdata := Config.freeRead s.freeCtr % 2 ^ r.width, freeCtr := s.freeCtr + 1 }) := by
  unfold hostRead
  cases h : readValue r s with
  | some v => exact .inl ⟨v, rfl, rfl⟩
  | none => exact .inr ⟨rfl, rfl⟩

/-! ### The environment (R43, R260, R290) -/

theorem rxPush_cases (b : Byte) (s : State) :
    (s.rxq.length < rxqDepth ∧ rxPush b s = { s with rxq := s.rxq ++ [b], rxStream := s.rxStream ++ [b] }) ∨
    (rxqDepth ≤ s.rxq.length ∧ rxPush b s = { s with rxovr := true, rxStream := s.rxStream ++ [b] }) := by
  unfold rxPush
  by_cases h : s.rxq.length < rxqDepth
  · exact .inl ⟨h, if_pos h⟩
  · exact .inr ⟨by omega, if_neg h⟩

theorem tpAnswer_cases (a : TpAnswer) (s : State) :
    ((s.st = .opening ∧ s.tpReq = true ∧ s.owned = false ∧ s.tpAns = none) ∧
      tpAnswer a s = { s with tpAns := some a }) ∨ tpAnswer a s = s := by
  unfold tpAnswer
  split
  · exact .inl ⟨by assumption, rfl⟩
  · exact .inr rfl

theorem tpFaultMove_cases (s : State) :
    ((s.owned = true ∧ s.st.faultVisible = true) ∧ tpFaultMove s = { s with tpFault := true }) ∨
    tpFaultMove s = s := by
  unfold tpFaultMove
  split
  · exact .inl ⟨by assumption, rfl⟩
  · exact .inr rfl

end Sys2Proof.Machine
end

