-- ==== Sys2Proof/Laws/Engine.lean ====
section
/-! SUPPORT. What one step of the engine can do, said once: the rows of R203 as an inversion. Every invariant of the engine is a
case analysis over `EngineRow`. -/

namespace Sys2Proof.Machine

/-- The rows of the transition table R203: the state, the guard, and the state after. -/
inductive EngineRow (s : State) : State → Prop where
  | openGranted (hst : s.st = .opening) (ha : s.tpAns = some .grant) :
      EngineRow s (emit .openOk { s with tpAns := none, owned := true, st := .purge })
  | openFailed (hst : s.st = .opening) (ha : s.tpAns = some .fail) :
      EngineRow s (raise .transportUnavailable .none (emit .openFail { s with tpAns := none }))
  | fault (hst : s.st.faultVisible = true) (hf : s.tpFault = true) :
      EngineRow s (raise .transportFault .ioFault { s with tpFault := false })
  | overrun (hst : s.st.reading = true) (hf : s.tpFault = false) (ho : s.rxovr = true) :
      EngineRow s (raise .transportFault .rxOverrun s)
  | purge (hst : s.st = .purge) (hf : s.tpFault = false) : EngineRow s (doPurge s)
  | ctl (hst : s.st = .ctl) (hf : s.tpFault = false) (hd : expired s.dl s = true) :
      EngineRow s { s with ctlLine := !s.ctlLine, dl := s.now + s.cfg.tSettle, st := .settle }
  | settle (hst : s.st = .settle) (hf : s.tpFault = false) (hd : expired s.dl s = true) :
      EngineRow s { s with txi := 0, dl := s.now + s.l.cp.wrto, st := .tx }
  | txDone (hst : s.st = .tx) (hf : s.tpFault = false) (hi : s.txi = s.flen) :
      EngineRow s (afterTransmission (emit (.txDone s.flen) s))
  | txByte (hst : s.st = .tx) (hf : s.tpFault = false) (hi : s.txi < s.flen) (hr : s.txReady = true) :
      EngineRow s (transmitByte s)
  | txTimeout (hst : s.st = .tx) (hf : s.tpFault = false) (hi : s.txi < s.flen) (hr : s.txReady = false)
      (hd : expired s.dl s = true) :
      EngineRow s (raise .transportFault .writeTimeout s)
  | handshake (b : Byte) (rest : List Byte) (hst : s.st = .ackwait) (hf : s.tpFault = false)
      (ho : s.rxovr = false) (hq : s.rxq = b :: rest) :
      EngineRow s (takeHandshake b { s with rxq := rest })
  | ackTimeout (hst : s.st = .ackwait) (hf : s.tpFault = false) (ho : s.rxovr = false) (hq : s.rxq = [])
      (hd : expired s.dl s = true) :
      EngineRow s (raise .handshakeTimeout .none (emit .ackTimeout s))
  | countByte (b : Byte) (rest : List Byte) (hst : s.st = .rdCount) (hf : s.tpFault = false)
      (ho : s.rxovr = false) (hq : s.rxq = b :: rest) :
      EngineRow s (takeResponse (fun s => s.tlen == s.l.expbytes.toNat) b { s with rxq := rest })
  | countTimeout (hst : s.st = .rdCount) (hf : s.tpFault = false) (ho : s.rxovr = false) (hq : s.rxq = [])
      (hd : expired s.dl s = true) : EngineRow s (shortRead s)
  | delimByte (b : Byte) (rest : List Byte) (hst : s.st = .rdDelim) (hf : s.tpFault = false)
      (ho : s.rxovr = false) (hq : s.rxq = b :: rest) :
      EngineRow s (takeResponse (fun _ => b == endByte) b { s with rxq := rest })
  | delimTimeout (hst : s.st = .rdDelim) (hf : s.tpFault = false) (ho : s.rxovr = false) (hq : s.rxq = [])
      (hd : expired s.dl s = true) :
      EngineRow s (delimDeadline s)
  | burstByte (b : Byte) (rest : List Byte) (hst : s.st = .rdBurst) (hf : s.tpFault = false)
      (ho : s.rxovr = false) (hq : s.rxq = b :: rest) :
      EngineRow s (takeResponse (fun _ => false) b { s with rxq := rest })
  | burstEnd (hst : s.st = .rdBurst) (hf : s.tpFault = false) (ho : s.rxovr = false) (hq : s.rxq = [])
      (hd : expired s.dl s = true) :
      EngineRow s (succeed (emit .readDeadline s))
  | burstQuiet (hst : s.st = .rdBurst) (hf : s.tpFault = false) (ho : s.rxovr = false) (hq : s.rxq = [])
      (hd : expired s.dl s = false) :
      EngineRow s { s with qdl := minTime (s.now + s.cfg.tQuiet) s.dl, st := .rdQuiet }
  | quietStop (hst : s.st = .rdQuiet) (hf : s.tpFault = false) (ho : s.rxovr = false) (hd : expired s.qdl s = true)
      (hc : s.cfg.burstStopOnQuiet = true ∧ 0 < s.tlen ∧ s.rxq = []) :
      EngineRow s (succeed (emit .quietStop s))
  | quietLoop (hst : s.st = .rdQuiet) (hf : s.tpFault = false) (ho : s.rxovr = false) (hd : expired s.qdl s = true)
      (hc : ¬ (s.cfg.burstStopOnQuiet = true ∧ 0 < s.tlen ∧ s.rxq = [])) :
      EngineRow s { s with st := .rdBurst }
  | failed (hst : s.st = .failed) : EngineRow s (afterFailure s)
  | release (hst : s.st = .release) : EngineRow s (finishSuccess s)

theorem onFault_cases {s t : State} {rest : Option State} (h : onFault rest s = some t) :
    (s.tpFault = true ∧ t = raise .transportFault .ioFault { s with tpFault := false }) ∨
    (s.tpFault = false ∧ rest = some t) := by
  unfold onFault at h
  split at h
  · cases h; exact .inl ⟨by assumption, rfl⟩
  · rename_i hf; exact .inr ⟨by simpa using hf, h⟩

theorem onOverrun_cases {s t : State} {rest : Option State} (h : onOverrun rest s = some t) :
    (s.rxovr = true ∧ t = raise .transportFault .rxOverrun s) ∨
    (s.rxovr = false ∧ rest = some t) := by
  unfold onOverrun at h
  split at h
  · cases h; exact .inl ⟨by assumption, rfl⟩
  · rename_i ho; exact .inr ⟨by simpa using ho, h⟩

/-- Every step of the engine is a row of the table (R203). -/
theorem engineRows_row {s t : State} (h : engineRows s = some t) : EngineRow s t := by
  cases hst : s.st <;> simp only [engineRows, hst] at h
  case idle => cases h
  case closed => cases h
  case opening =>
    unfold stepOpening at h
    split at h
    · cases h
    · cases h; exact .openGranted hst (by assumption)
    · cases h; exact .openFailed hst (by assumption)
  case purge =>
    obtain ⟨hf, rfl⟩ | ⟨hf, h⟩ := onFault_cases h
    · exact .fault (by rw [hst]; rfl) hf
    · cases h; exact .purge hst hf
  case ctl =>
    obtain ⟨hf, rfl⟩ | ⟨hf, h⟩ := onFault_cases h
    · exact .fault (by rw [hst]; rfl) hf
    · unfold stepCtl at h
      split at h
      · cases h; exact .ctl hst hf (by assumption)
      · cases h
  case settle =>
    obtain ⟨hf, rfl⟩ | ⟨hf, h⟩ := onFault_cases h
    · exact .fault (by rw [hst]; rfl) hf
    · unfold stepSettle at h
      split at h
      · cases h; exact .settle hst hf (by assumption)
      · cases h
  case tx =>
    obtain ⟨hf, rfl⟩ | ⟨hf, h⟩ := onFault_cases h
    · exact .fault (by rw [hst]; rfl) hf
    · unfold stepTx at h
      split at h
      · cases h; exact .txDone hst hf (by assumption)
      split at h
      · split at h
        · cases h; exact .txByte hst hf (by assumption) (by assumption)
        · split at h
          · cases h
            rename_i hr _
            exact .txTimeout hst hf (by assumption) (by simpa using hr) (by assumption)
          · cases h
      · cases h
  case ackwait =>
    obtain ⟨hf, rfl⟩ | ⟨hf, h⟩ := onFault_cases h
    · exact .fault (by rw [hst]; rfl) hf
    obtain ⟨ho, rfl⟩ | ⟨ho, h⟩ := onOverrun_cases h
    · exact .overrun (by rw [hst]; rfl) hf ho
    · unfold stepAckwait at h
      split at h
      · cases h; exact .handshake _ _ hst hf ho (by assumption)
      · split at h
        · cases h; exact .ackTimeout hst hf ho (by assumption) (by assumption)
        · cases h
  case rdCount =>
    obtain ⟨hf, rfl⟩ | ⟨hf, h⟩ := onFault_cases h
    · exact .fault (by rw [hst]; rfl) hf
    obtain ⟨ho, rfl⟩ | ⟨ho, h⟩ := onOverrun_cases h
    · exact .overrun (by rw [hst]; rfl) hf ho
    · unfold stepRdCount at h
      split at h
      · cases h; exact .countByte _ _ hst hf ho (by assumption)
      · split at h
        · cases h; exact .countTimeout hst hf ho (by assumption) (by assumption)
        · cases h
  case rdDelim =>
    obtain ⟨hf, rfl⟩ | ⟨hf, h⟩ := onFault_cases h
    · exact .fault (by rw [hst]; rfl) hf
    obtain ⟨ho, rfl⟩ | ⟨ho, h⟩ := onOverrun_cases h
    · exact .overrun (by rw [hst]; rfl) hf ho
    · unfold stepRdDelim at h
      split at h
      · cases h; exact .delimByte _ _ hst hf ho (by assumption)
      · split at h
        · cases h; exact .delimTimeout hst hf ho (by assumption) (by assumption)
        · cases h
  case rdBurst =>
    obtain ⟨hf, rfl⟩ | ⟨hf, h⟩ := onFault_cases h
    · exact .fault (by rw [hst]; rfl) hf
    obtain ⟨ho, rfl⟩ | ⟨ho, h⟩ := onOverrun_cases h
    · exact .overrun (by rw [hst]; rfl) hf ho
    · unfold stepRdBurst at h
      split at h
      · cases h; exact .burstByte _ _ hst hf ho (by assumption)
      · split at h
        · cases h; exact .burstEnd hst hf ho (by assumption) (by assumption)
        · rename_i hd
          cases h
          exact .burstQuiet hst hf ho (by assumption) (by simpa using hd)
  case rdQuiet =>
    obtain ⟨hf, rfl⟩ | ⟨hf, h⟩ := onFault_cases h
    · exact .fault (by rw [hst]; rfl) hf
    obtain ⟨ho, rfl⟩ | ⟨ho, h⟩ := onOverrun_cases h
    · exact .overrun (by rw [hst]; rfl) hf ho
    · unfold stepRdQuiet at h
      split at h
      · split at h
        · cases h; exact .quietStop hst hf ho (by assumption) (by assumption)
        · cases h; exact .quietLoop hst hf ho (by assumption) (by assumption)
      · cases h
  case failed => cases h; exact .failed hst
  case release => cases h; exact .release hst

/-- A step of the engine is a row of the table, taken with `tx_valid` down. -/
theorem engineStep_row {s t : State} (h : engineStep s = some t) : EngineRow { s with txValid := false } t :=
  engineRows_row h

/-! ### The actions that branch -/

theorem takeHandshake_cases (b : Byte) (s : State) :
    (b = nakByte ∧ takeHandshake b s = raise .handshakeRejected .none (emit .nak s)) ∨
    (b ≠ nakByte ∧ b = ackByte ∧ takeHandshake b s = enterRead (emit .ackOk s)) ∨
    (b ≠ nakByte ∧ b ≠ ackByte ∧
      takeHandshake b s = append b (fun s => enterRead (emit (.ackFallthrough b) s)) s) := by
  unfold takeHandshake
  by_cases h1 : b = nakByte
  · exact .inl ⟨h1, if_pos h1⟩
  · by_cases h2 : b = ackByte
    · exact .inr (.inl ⟨h1, h2, by rw [if_neg h1, if_pos h2]⟩)
    · exact .inr (.inr ⟨h1, h2, by rw [if_neg h1, if_neg h2]⟩)

theorem afterTransmission_cases (s : State) :
    (s.l.ack = true ∧
      afterTransmission s = { s with dl := s.now + minTime s.l.cp.rdto s.cfg.tAckMax, st := .ackwait }) ∨
    (s.l.ack = false ∧ s.l.expbytes = 0 ∧ afterTransmission s = succeed s) ∨
    (s.l.ack = false ∧ s.l.expbytes ≠ 0 ∧ afterTransmission s = enterRead s) := by
  unfold afterTransmission
  by_cases h1 : s.l.ack = true
  · exact .inl ⟨h1, if_pos h1⟩
  · have h1' : s.l.ack = false := by simpa using h1
    by_cases h2 : s.l.expbytes = 0
    · exact .inr (.inl ⟨h1', h2, by rw [if_neg h1, if_pos h2]⟩)
    · exact .inr (.inr ⟨h1', h2, by rw [if_neg h1, if_neg h2]⟩)

theorem delimDeadline_cases (s : State) :
    (s.cfg.delimTimeoutFails = true ∧ delimDeadline s =
      raise .readTimeout (.counts 0 s.tlen) (emit .readDeadline { s with expn := 0, gotn := s.tlen })) ∨
    (s.cfg.delimTimeoutFails = false ∧ delimDeadline s = succeed (emit .readDeadline s)) := by
  unfold delimDeadline
  by_cases h : s.cfg.delimTimeoutFails = true
  · exact .inl ⟨h, if_pos h⟩
  · exact .inr ⟨by simpa using h, if_neg h⟩

theorem finishSuccess_cases (s : State) :
    ((s.l.val = true ∧ validate s = false) ∧ finishSuccess s =
      writeOutcome false .validationMismatch .none (emit .validationMismatch (release s))) ∨
    (¬ (s.l.val = true ∧ validate s = false) ∧
      finishSuccess s = writeOutcome true .none (successKind s) (release s)) := by
  unfold finishSuccess
  by_cases h : s.l.val = true ∧ validate s = false
  · exact .inl ⟨h, if_pos h⟩
  · exact .inr ⟨h, if_neg h⟩

/-- The read phase is entered in one of four states (R186). -/
theorem readEntryState_cases (s : State) :
    (s.l.expbytes ≠ 0 ∧ s.tlen = s.l.expbytes.toNat ∧ readEntryState s = .release) ∨
    (s.l.expbytes ≠ 0 ∧ s.tlen ≠ s.l.expbytes.toNat ∧ readEntryState s = .rdCount) ∨
    (s.l.expbytes = 0 ∧ s.l.wrap = true ∧ 0 < s.tlen ∧ readCell s .trace (s.tlen - 1) = endByte ∧
      readEntryState s = .release) ∨
    (s.l.expbytes = 0 ∧ s.l.wrap = true ∧ ¬ (0 < s.tlen ∧ readCell s .trace (s.tlen - 1) = endByte) ∧
      readEntryState s = .rdDelim) ∨
    (s.l.expbytes = 0 ∧ s.l.wrap = false ∧ readEntryState s = .rdBurst) := by
  unfold readEntryState readMode
  by_cases h1 : s.l.expbytes = 0
  · by_cases h2 : s.l.wrap = true
    · by_cases h3 : 0 < s.tlen ∧ readCell s .trace (s.tlen - 1) = endByte
      · exact .inr (.inr (.inl ⟨h1, h2, h3.1, h3.2, by simp [h1, h2, h3]⟩))
      · refine .inr (.inr (.inr (.inl ⟨h1, h2, h3, ?_⟩)))
        simp only [h1, ne_eq, not_true_eq_false, if_false, h2, if_true]
        exact if_neg h3
    · have h2' : s.l.wrap = false := by simpa using h2
      exact .inr (.inr (.inr (.inr ⟨h1, h2', by simp [h1, h2']⟩)))
  · by_cases h2 : s.tlen = s.l.expbytes.toNat
    · exact .inl ⟨h1, h2, by rw [if_pos h1]; exact if_pos h2⟩
    · exact .inr (.inl ⟨h1, h2, by rw [if_pos h1]; exact if_neg h2⟩)

/-- The states that `enter_read()` can lead to. -/
theorem readEntryState_mem (s : State) :
    readEntryState s = .release ∨ readEntryState s = .rdCount ∨ readEntryState s = .rdDelim ∨
    readEntryState s = .rdBurst := by
  rcases readEntryState_cases s with ⟨_, _, h⟩ | ⟨_, _, h⟩ | ⟨_, _, _, _, h⟩ | ⟨_, _, _, h⟩ | ⟨_, _, h⟩ <;> simp [h]

end Sys2Proof.Machine
end

