-- ==== Sys2Proof/Laws/Fields.lean ====
section
/-! SUPPORT. One lemma per field for the composed updates: the loading of a frame, the start of an exchange, the engine steps made
of several updates, and the tick of the clock. -/

namespace Sys2Proof.Machine

/-! ### `loadFrame` -/

@[simp] theorem loadFrame_cmd (f : List Byte) (s : State) : (loadFrame f s).cmd = s.cmd := rfl
@[simp] theorem loadFrame_payload (f : List Byte) (s : State) : (loadFrame f s).payload = s.payload := rfl
@[simp] theorem loadFrame_plen (f : List Byte) (s : State) : (loadFrame f s).plen = s.plen := rfl
@[simp] theorem loadFrame_expbytes (f : List Byte) (s : State) : (loadFrame f s).expbytes = s.expbytes := rfl
@[simp] theorem loadFrame_rdto (f : List Byte) (s : State) : (loadFrame f s).rdto = s.rdto := rfl
@[simp] theorem loadFrame_cp (f : List Byte) (s : State) : (loadFrame f s).cp = s.cp := rfl
@[simp] theorem loadFrame_vpfx (f : List Byte) (s : State) : (loadFrame f s).vpfx = s.vpfx := rfl
@[simp] theorem loadFrame_vplen (f : List Byte) (s : State) : (loadFrame f s).vplen = s.vplen := rfl
@[simp] theorem loadFrame_vpfxen (f : List Byte) (s : State) : (loadFrame f s).vpfxen = s.vpfxen := rfl
@[simp] theorem loadFrame_vsub (f : List Byte) (s : State) : (loadFrame f s).vsub = s.vsub := rfl
@[simp] theorem loadFrame_vslen (f : List Byte) (s : State) : (loadFrame f s).vslen = s.vslen := rfl
@[simp] theorem loadFrame_vsuben (f : List Byte) (s : State) : (loadFrame f s).vsuben = s.vsuben := rfl
@[simp] theorem loadFrame_cfg (f : List Byte) (s : State) : (loadFrame f s).cfg = s.cfg := rfl
@[simp] theorem loadFrame_l (f : List Byte) (s : State) : (loadFrame f s).l = s.l := rfl
@[simp] theorem loadFrame_st (f : List Byte) (s : State) : (loadFrame f s).st = s.st := rfl
@[simp] theorem loadFrame_attempt (f : List Byte) (s : State) : (loadFrame f s).attempt = s.attempt := rfl
@[simp] theorem loadFrame_natt (f : List Byte) (s : State) : (loadFrame f s).natt = s.natt := rfl
@[simp] theorem loadFrame_lastErr (f : List Byte) (s : State) : (loadFrame f s).lastErr = s.lastErr := rfl
@[simp] theorem loadFrame_txi (f : List Byte) (s : State) : (loadFrame f s).txi = s.txi := rfl
@[simp] theorem loadFrame_t0 (f : List Byte) (s : State) : (loadFrame f s).t0 = s.t0 := rfl
@[simp] theorem loadFrame_dl (f : List Byte) (s : State) : (loadFrame f s).dl = s.dl := rfl
@[simp] theorem loadFrame_qdl (f : List Byte) (s : State) : (loadFrame f s).qdl = s.qdl := rfl
@[simp] theorem loadFrame_frame (f : List Byte) (s : State) : (loadFrame f s).frame = storeBytes s.frame 0 f := rfl
@[simp] theorem loadFrame_flen (f : List Byte) (s : State) : (loadFrame f s).flen = f.length := rfl
@[simp] theorem loadFrame_trace (f : List Byte) (s : State) : (loadFrame f s).trace = s.trace := rfl
@[simp] theorem loadFrame_tlen (f : List Byte) (s : State) : (loadFrame f s).tlen = s.tlen := rfl
@[simp] theorem loadFrame_rxq (f : List Byte) (s : State) : (loadFrame f s).rxq = s.rxq := rfl
@[simp] theorem loadFrame_ok (f : List Byte) (s : State) : (loadFrame f s).ok = s.ok := rfl
@[simp] theorem loadFrame_errkind (f : List Byte) (s : State) : (loadFrame f s).errkind = s.errkind := rfl
@[simp] theorem loadFrame_succkind (f : List Byte) (s : State) : (loadFrame f s).succkind = s.succkind := rfl
@[simp] theorem loadFrame_elapsed (f : List Byte) (s : State) : (loadFrame f s).elapsed = s.elapsed := rfl
@[simp] theorem loadFrame_attempts (f : List Byte) (s : State) : (loadFrame f s).attempts = s.attempts := rfl
@[simp] theorem loadFrame_expn (f : List Byte) (s : State) : (loadFrame f s).expn = s.expn := rfl
@[simp] theorem loadFrame_gotn (f : List Byte) (s : State) : (loadFrame f s).gotn = s.gotn := rfl
@[simp] theorem loadFrame_ck (f : List Byte) (s : State) : (loadFrame f s).ck = s.ck := rfl
@[simp] theorem loadFrame_derr (f : List Byte) (s : State) : (loadFrame f s).derr = s.derr := rfl
@[simp] theorem loadFrame_vres (f : List Byte) (s : State) : (loadFrame f s).vres = s.vres := rfl
@[simp] theorem loadFrame_busy (f : List Byte) (s : State) : (loadFrame f s).busy = s.busy := rfl
@[simp] theorem loadFrame_done (f : List Byte) (s : State) : (loadFrame f s).done = s.done := rfl
@[simp] theorem loadFrame_cmderr (f : List Byte) (s : State) : (loadFrame f s).cmderr = s.cmderr := rfl
@[simp] theorem loadFrame_cfgmiss (f : List Byte) (s : State) : (loadFrame f s).cfgmiss = s.cfgmiss := rfl
@[simp] theorem loadFrame_owned (f : List Byte) (s : State) : (loadFrame f s).owned = s.owned := rfl
@[simp] theorem loadFrame_rxovr (f : List Byte) (s : State) : (loadFrame f s).rxovr = s.rxovr := rfl
@[simp] theorem loadFrame_ctlLine (f : List Byte) (s : State) : (loadFrame f s).ctlLine = s.ctlLine := rfl
@[simp] theorem loadFrame_tpReq (f : List Byte) (s : State) : (loadFrame f s).tpReq = s.tpReq := rfl
@[simp] theorem loadFrame_txByte (f : List Byte) (s : State) : (loadFrame f s).txByte = s.txByte := rfl
@[simp] theorem loadFrame_txValid (f : List Byte) (s : State) : (loadFrame f s).txValid = s.txValid := rfl
@[simp] theorem loadFrame_evt (f : List Byte) (s : State) : (loadFrame f s).evt = s.evt := rfl
@[simp] theorem loadFrame_now (f : List Byte) (s : State) : (loadFrame f s).now = s.now := rfl
@[simp] theorem loadFrame_txReady (f : List Byte) (s : State) : (loadFrame f s).txReady = s.txReady := rfl
@[simp] theorem loadFrame_tpAns (f : List Byte) (s : State) : (loadFrame f s).tpAns = s.tpAns := rfl
@[simp] theorem loadFrame_tpFault (f : List Byte) (s : State) : (loadFrame f s).tpFault = s.tpFault := rfl
@[simp] theorem loadFrame_resetHeld (f : List Byte) (s : State) : (loadFrame f s).resetHeld = s.resetHeld := rfl
@[simp] theorem loadFrame_txStream (f : List Byte) (s : State) : (loadFrame f s).txStream = s.txStream := rfl
@[simp] theorem loadFrame_rxStream (f : List Byte) (s : State) : (loadFrame f s).rxStream = s.rxStream := rfl
@[simp] theorem loadFrame_script (f : List Byte) (s : State) : (loadFrame f s).script = s.script := rfl
@[simp] theorem loadFrame_rdata (f : List Byte) (s : State) : (loadFrame f s).rdata = s.rdata := rfl
@[simp] theorem loadFrame_freeCtr (f : List Byte) (s : State) : (loadFrame f s).freeCtr = s.freeCtr := rfl
@[simp] theorem loadFrame_epoch (f : List Byte) (s : State) : (loadFrame f s).epoch = s.epoch := rfl

/-! ### `startExchange` -/

@[simp] theorem startExchange_cmd (c : Byte) (m : ChecksumMode) (s : State) :
    (startExchange c m s).cmd = s.cmd := by simp [startExchange]
@[simp] theorem startExchange_payload (c : Byte) (m : ChecksumMode) (s : State) :
    (startExchange c m s).payload = s.payload := by simp [startExchange]
@[simp] theorem startExchange_plen (c : Byte) (m : ChecksumMode) (s : State) :
    (startExchange c m s).plen = s.plen := by simp [startExchange]
@[simp] theorem startExchange_expbytes (c : Byte) (m : ChecksumMode) (s : State) :
    (startExchange c m s).expbytes = s.expbytes := by simp [startExchange]
@[simp] theorem startExchange_rdto (c : Byte) (m : ChecksumMode) (s : State) :
    (startExchange c m s).rdto = s.rdto := by simp [startExchange]
@[simp] theorem startExchange_cp (c : Byte) (m : ChecksumMode) (s : State) :
    (startExchange c m s).cp = s.cp := by simp [startExchange]
@[simp] theorem startExchange_vpfx (c : Byte) (m : ChecksumMode) (s : State) :
    (startExchange c m s).vpfx = s.vpfx := by simp [startExchange]
@[simp] theorem startExchange_vplen (c : Byte) (m : ChecksumMode) (s : State) :
    (startExchange c m s).vplen = s.vplen := by simp [startExchange]
@[simp] theorem startExchange_vpfxen (c : Byte) (m : ChecksumMode) (s : State) :
    (startExchange c m s).vpfxen = s.vpfxen := by simp [startExchange]
@[simp] theorem startExchange_vsub (c : Byte) (m : ChecksumMode) (s : State) :
    (startExchange c m s).vsub = s.vsub := by simp [startExchange]
@[simp] theorem startExchange_vslen (c : Byte) (m : ChecksumMode) (s : State) :
    (startExchange c m s).vslen = s.vslen := by simp [startExchange]
@[simp] theorem startExchange_vsuben (c : Byte) (m : ChecksumMode) (s : State) :
    (startExchange c m s).vsuben = s.vsuben := by simp [startExchange]
@[simp] theorem startExchange_cfg (c : Byte) (m : ChecksumMode) (s : State) :
    (startExchange c m s).cfg = s.cfg := by simp [startExchange]
@[simp] theorem startExchange_l (c : Byte) (m : ChecksumMode) (s : State) :
    (startExchange c m s).l = latchDescriptor c s := by simp [startExchange]
@[simp] theorem startExchange_st (c : Byte) (m : ChecksumMode) (s : State) :
    (startExchange c m s).st = .opening := by simp [startExchange]
@[simp] theorem startExchange_attempt (c : Byte) (m : ChecksumMode) (s : State) :
    (startExchange c m s).attempt = 1 := by simp [startExchange]
@[simp] theorem startExchange_natt (c : Byte) (m : ChecksumMode) (s : State) :
    (startExchange c m s).natt = attemptsAllowed s.cp.retries := by simp [startExchange]
@[simp] theorem startExchange_lastErr (c : Byte) (m : ChecksumMode) (s : State) :
    (startExchange c m s).lastErr = .none := by simp [startExchange]
@[simp] theorem startExchange_txi (c : Byte) (m : ChecksumMode) (s : State) :
    (startExchange c m s).txi = s.txi := by simp [startExchange]
@[simp] theorem startExchange_t0 (c : Byte) (m : ChecksumMode) (s : State) :
    (startExchange c m s).t0 = s.now := by simp [startExchange]
@[simp] theorem startExchange_dl (c : Byte) (m : ChecksumMode) (s : State) :
    (startExchange c m s).dl = s.dl := by simp [startExchange]
@[simp] theorem startExchange_qdl (c : Byte) (m : ChecksumMode) (s : State) :
    (startExchange c m s).qdl = s.qdl := by simp [startExchange]
@[simp] theorem startExchange_frame (c : Byte) (m : ChecksumMode) (s : State) :
    (startExchange c m s).frame = storeBytes s.frame 0 (frameOf (payloadBytes s) (cmdWrap c) m) := by simp [startExchange]
@[simp] theorem startExchange_flen (c : Byte) (m : ChecksumMode) (s : State) :
    (startExchange c m s).flen = (frameOf (payloadBytes s) (cmdWrap c) m).length := by simp [startExchange]
@[simp] theorem startExchange_trace (c : Byte) (m : ChecksumMode) (s : State) :
    (startExchange c m s).trace = s.trace := by simp [startExchange]
@[simp] theorem startExchange_tlen (c : Byte) (m : ChecksumMode) (s : State) :
    (startExchange c m s).tlen = 0 := by simp [startExchange]
@[simp] theorem startExchange_rxq (c : Byte) (m : ChecksumMode) (s : State) :
    (startExchange c m s).rxq = s.rxq := by simp [startExchange]
@[simp] theorem startExchange_ok (c : Byte) (m : ChecksumMode) (s : State) :
    (startExchange c m s).ok = false := by simp [startExchange]
@[simp] theorem startExchange_errkind (c : Byte) (m : ChecksumMode) (s : State) :
    (startExchange c m s).errkind = .none := by simp [startExchange]
@[simp] theorem startExchange_succkind (c : Byte) (m : ChecksumMode) (s : State) :
    (startExchange c m s).succkind = .none := by simp [startExchange]
@[simp] theorem startExchange_elapsed (c : Byte) (m : ChecksumMode) (s : State) :
    (startExchange c m s).elapsed = 0 := by simp [startExchange]
@[simp] theorem startExchange_attempts (c : Byte) (m : ChecksumMode) (s : State) :
    (startExchange c m s).attempts = 0 := by simp [startExchange]
@[simp] theorem startExchange_expn (c : Byte) (m : ChecksumMode) (s : State) :
    (startExchange c m s).expn = 0 := by simp [startExchange]
@[simp] theorem startExchange_gotn (c : Byte) (m : ChecksumMode) (s : State) :
    (startExchange c m s).gotn = 0 := by simp [startExchange]
@[simp] theorem startExchange_ck (c : Byte) (m : ChecksumMode) (s : State) :
    (startExchange c m s).ck = s.ck := by simp [startExchange]
@[simp] theorem startExchange_derr (c : Byte) (m : ChecksumMode) (s : State) :
    (startExchange c m s).derr = s.derr := by simp [startExchange]
@[simp] theorem startExchange_vres (c : Byte) (m : ChecksumMode) (s : State) :
    (startExchange c m s).vres = s.vres := by simp [startExchange]
@[simp] theorem startExchange_busy (c : Byte) (m : ChecksumMode) (s : State) :
    (startExchange c m s).busy = true := by simp [startExchange]
@[simp] theorem startExchange_done (c : Byte) (m : ChecksumMode) (s : State) :
    (startExchange c m s).done = s.done := by simp [startExchange]
@[simp] theorem startExchange_cmderr (c : Byte) (m : ChecksumMode) (s : State) :
    (startExchange c m s).cmderr = s.cmderr := by simp [startExchange]
@[simp] theorem startExchange_cfgmiss (c : Byte) (m : ChecksumMode) (s : State) :
    (startExchange c m s).cfgmiss = s.cfgmiss := by simp [startExchange]
@[simp] theorem startExchange_owned (c : Byte) (m : ChecksumMode) (s : State) :
    (startExchange c m s).owned = s.owned := by simp [startExchange]
@[simp] theorem startExchange_rxovr (c : Byte) (m : ChecksumMode) (s : State) :
    (startExchange c m s).rxovr = s.rxovr := by simp [startExchange]
@[simp] theorem startExchange_ctlLine (c : Byte) (m : ChecksumMode) (s : State) :
    (startExchange c m s).ctlLine = s.ctlLine := by simp [startExchange]
@[simp] theorem startExchange_tpReq (c : Byte) (m : ChecksumMode) (s : State) :
    (startExchange c m s).tpReq = true := by simp [startExchange]
@[simp] theorem startExchange_txByte (c : Byte) (m : ChecksumMode) (s : State) :
    (startExchange c m s).txByte = s.txByte := by simp [startExchange]
@[simp] theorem startExchange_txValid (c : Byte) (m : ChecksumMode) (s : State) :
    (startExchange c m s).txValid = s.txValid := by simp [startExchange]
@[simp] theorem startExchange_evt (c : Byte) (m : ChecksumMode) (s : State) :
    (startExchange c m s).evt = s.evt ++ [⟨s.now, .attemptStart 1⟩] := by simp [startExchange]
@[simp] theorem startExchange_now (c : Byte) (m : ChecksumMode) (s : State) :
    (startExchange c m s).now = s.now := by simp [startExchange]
@[simp] theorem startExchange_txReady (c : Byte) (m : ChecksumMode) (s : State) :
    (startExchange c m s).txReady = s.txReady := by simp [startExchange]
@[simp] theorem startExchange_tpAns (c : Byte) (m : ChecksumMode) (s : State) :
    (startExchange c m s).tpAns = s.tpAns := by simp [startExchange]
@[simp] theorem startExchange_tpFault (c : Byte) (m : ChecksumMode) (s : State) :
    (startExchange c m s).tpFault = s.tpFault := by simp [startExchange]
@[simp] theorem startExchange_resetHeld (c : Byte) (m : ChecksumMode) (s : State) :
    (startExchange c m s).resetHeld = s.resetHeld := by simp [startExchange]
@[simp] theorem startExchange_txStream (c : Byte) (m : ChecksumMode) (s : State) :
    (startExchange c m s).txStream = s.txStream := by simp [startExchange]
@[simp] theorem startExchange_rxStream (c : Byte) (m : ChecksumMode) (s : State) :
    (startExchange c m s).rxStream = s.rxStream := by simp [startExchange]
@[simp] theorem startExchange_script (c : Byte) (m : ChecksumMode) (s : State) :
    (startExchange c m s).script = s.script := by simp [startExchange]
@[simp] theorem startExchange_rdata (c : Byte) (m : ChecksumMode) (s : State) :
    (startExchange c m s).rdata = s.rdata := by simp [startExchange]
@[simp] theorem startExchange_freeCtr (c : Byte) (m : ChecksumMode) (s : State) :
    (startExchange c m s).freeCtr = s.freeCtr := by simp [startExchange]
@[simp] theorem startExchange_epoch (c : Byte) (m : ChecksumMode) (s : State) :
    (startExchange c m s).epoch = s.epoch := by simp [startExchange]

/-! ### `doPurge` -/

@[simp] theorem doPurge_cmd (s : State) : (doPurge s).cmd = s.cmd := by simp [doPurge]
@[simp] theorem doPurge_payload (s : State) : (doPurge s).payload = s.payload := by simp [doPurge]
@[simp] theorem doPurge_plen (s : State) : (doPurge s).plen = s.plen := by simp [doPurge]
@[simp] theorem doPurge_expbytes (s : State) : (doPurge s).expbytes = s.expbytes := by simp [doPurge]
@[simp] theorem doPurge_rdto (s : State) : (doPurge s).rdto = s.rdto := by simp [doPurge]
@[simp] theorem doPurge_cp (s : State) : (doPurge s).cp = s.cp := by simp [doPurge]
@[simp] theorem doPurge_vpfx (s : State) : (doPurge s).vpfx = s.vpfx := by simp [doPurge]
@[simp] theorem doPurge_vplen (s : State) : (doPurge s).vplen = s.vplen := by simp [doPurge]
@[simp] theorem doPurge_vpfxen (s : State) : (doPurge s).vpfxen = s.vpfxen := by simp [doPurge]
@[simp] theorem doPurge_vsub (s : State) : (doPurge s).vsub = s.vsub := by simp [doPurge]
@[simp] theorem doPurge_vslen (s : State) : (doPurge s).vslen = s.vslen := by simp [doPurge]
@[simp] theorem doPurge_vsuben (s : State) : (doPurge s).vsuben = s.vsuben := by simp [doPurge]
@[simp] theorem doPurge_cfg (s : State) : (doPurge s).cfg = s.cfg := by simp [doPurge]
@[simp] theorem doPurge_l (s : State) : (doPurge s).l = s.l := by simp [doPurge]
@[simp] theorem doPurge_st (s : State) : (doPurge s).st = .ctl := by simp [doPurge]
@[simp] theorem doPurge_attempt (s : State) : (doPurge s).attempt = s.attempt := by simp [doPurge]
@[simp] theorem doPurge_natt (s : State) : (doPurge s).natt = s.natt := by simp [doPurge]
@[simp] theorem doPurge_lastErr (s : State) : (doPurge s).lastErr = s.lastErr := by simp [doPurge]
@[simp] theorem doPurge_txi (s : State) : (doPurge s).txi = s.txi := by simp [doPurge]
@[simp] theorem doPurge_t0 (s : State) : (doPurge s).t0 = s.t0 := by simp [doPurge]
@[simp] theorem doPurge_dl (s : State) : (doPurge s).dl = s.now + s.cfg.tCtl := by simp [doPurge]
@[simp] theorem doPurge_qdl (s : State) : (doPurge s).qdl = s.qdl := by simp [doPurge]
@[simp] theorem doPurge_frame (s : State) : (doPurge s).frame = s.frame := by simp [doPurge]
@[simp] theorem doPurge_flen (s : State) : (doPurge s).flen = s.flen := by simp [doPurge]
@[simp] theorem doPurge_trace (s : State) : (doPurge s).trace = s.trace := by simp [doPurge]
@[simp] theorem doPurge_tlen (s : State) : (doPurge s).tlen = 0 := by simp [doPurge]
@[simp] theorem doPurge_rxq (s : State) : (doPurge s).rxq = [] := by simp [doPurge]
@[simp] theorem doPurge_ok (s : State) : (doPurge s).ok = s.ok := by simp [doPurge]
@[simp] theorem doPurge_errkind (s : State) : (doPurge s).errkind = s.errkind := by simp [doPurge]
@[simp] theorem doPurge_succkind (s : State) : (doPurge s).succkind = s.succkind := by simp [doPurge]
@[simp] theorem doPurge_elapsed (s : State) : (doPurge s).elapsed = s.elapsed := by simp [doPurge]
@[simp] theorem doPurge_attempts (s : State) : (doPurge s).attempts = s.attempts := by simp [doPurge]
@[simp] theorem doPurge_expn (s : State) : (doPurge s).expn = s.expn := by simp [doPurge]
@[simp] theorem doPurge_gotn (s : State) : (doPurge s).gotn = s.gotn := by simp [doPurge]
@[simp] theorem doPurge_ck (s : State) : (doPurge s).ck = s.ck := by simp [doPurge]
@[simp] theorem doPurge_derr (s : State) : (doPurge s).derr = s.derr := by simp [doPurge]
@[simp] theorem doPurge_vres (s : State) : (doPurge s).vres = s.vres := by simp [doPurge]
@[simp] theorem doPurge_busy (s : State) : (doPurge s).busy = s.busy := by simp [doPurge]
@[simp] theorem doPurge_done (s : State) : (doPurge s).done = s.done := by simp [doPurge]
@[simp] theorem doPurge_cmderr (s : State) : (doPurge s).cmderr = s.cmderr := by simp [doPurge]
@[simp] theorem doPurge_cfgmiss (s : State) : (doPurge s).cfgmiss = s.cfgmiss := by simp [doPurge]
@[simp] theorem doPurge_owned (s : State) : (doPurge s).owned = s.owned := by simp [doPurge]
@[simp] theorem doPurge_rxovr (s : State) : (doPurge s).rxovr = false := by simp [doPurge]
@[simp] theorem doPurge_ctlLine (s : State) : (doPurge s).ctlLine = !s.ctlLine := by simp [doPurge]
@[simp] theorem doPurge_tpReq (s : State) : (doPurge s).tpReq = s.tpReq := by simp [doPurge]
@[simp] theorem doPurge_txByte (s : State) : (doPurge s).txByte = s.txByte := by simp [doPurge]
@[simp] theorem doPurge_txValid (s : State) : (doPurge s).txValid = s.txValid := by simp [doPurge]
@[simp] theorem doPurge_evt (s : State) :
    (doPurge s).evt = s.evt ++ [⟨s.now, .purge⟩] ++ [⟨s.now, .ctlToggle⟩] := by simp [doPurge]
@[simp] theorem doPurge_now (s : State) : (doPurge s).now = s.now := by simp [doPurge]
@[simp] theorem doPurge_txReady (s : State) : (doPurge s).txReady = s.txReady := by simp [doPurge]
@[simp] theorem doPurge_tpAns (s : State) : (doPurge s).tpAns = s.tpAns := by simp [doPurge]
@[simp] theorem doPurge_tpFault (s : State) : (doPurge s).tpFault = s.tpFault := by simp [doPurge]
@[simp] theorem doPurge_resetHeld (s : State) : (doPurge s).resetHeld = s.resetHeld := by simp [doPurge]
@[simp] theorem doPurge_txStream (s : State) : (doPurge s).txStream = s.txStream := by simp [doPurge]
@[simp] theorem doPurge_rxStream (s : State) : (doPurge s).rxStream = s.rxStream := by simp [doPurge]
@[simp] theorem doPurge_script (s : State) : (doPurge s).script = s.script := by simp [doPurge]
@[simp] theorem doPurge_rdata (s : State) : (doPurge s).rdata = s.rdata := by simp [doPurge]
@[simp] theorem doPurge_freeCtr (s : State) : (doPurge s).freeCtr = s.freeCtr := by simp [doPurge]
@[simp] theorem doPurge_epoch (s : State) : (doPurge s).epoch = s.epoch := by simp [doPurge]

/-! ### `transmitByte` -/

@[simp] theorem transmitByte_cmd (s : State) : (transmitByte s).cmd = s.cmd := by simp [transmitByte]
@[simp] theorem transmitByte_payload (s : State) : (transmitByte s).payload = s.payload := by simp [transmitByte]
@[simp] theorem transmitByte_plen (s : State) : (transmitByte s).plen = s.plen := by simp [transmitByte]
@[simp] theorem transmitByte_expbytes (s : State) : (transmitByte s).expbytes = s.expbytes := by simp [transmitByte]
@[simp] theorem transmitByte_rdto (s : State) : (transmitByte s).rdto = s.rdto := by simp [transmitByte]
@[simp] theorem transmitByte_cp (s : State) : (transmitByte s).cp = s.cp := by simp [transmitByte]
@[simp] theorem transmitByte_vpfx (s : State) : (transmitByte s).vpfx = s.vpfx := by simp [transmitByte]
@[simp] theorem transmitByte_vplen (s : State) : (transmitByte s).vplen = s.vplen := by simp [transmitByte]
@[simp] theorem transmitByte_vpfxen (s : State) : (transmitByte s).vpfxen = s.vpfxen := by simp [transmitByte]
@[simp] theorem transmitByte_vsub (s : State) : (transmitByte s).vsub = s.vsub := by simp [transmitByte]
@[simp] theorem transmitByte_vslen (s : State) : (transmitByte s).vslen = s.vslen := by simp [transmitByte]
@[simp] theorem transmitByte_vsuben (s : State) : (transmitByte s).vsuben = s.vsuben := by simp [transmitByte]
@[simp] theorem transmitByte_cfg (s : State) : (transmitByte s).cfg = s.cfg := by simp [transmitByte]
@[simp] theorem transmitByte_l (s : State) : (transmitByte s).l = s.l := by simp [transmitByte]
@[simp] theorem transmitByte_st (s : State) : (transmitByte s).st = s.st := by simp [transmitByte]
@[simp] theorem transmitByte_attempt (s : State) : (transmitByte s).attempt = s.attempt := by simp [transmitByte]
@[simp] theorem transmitByte_natt (s : State) : (transmitByte s).natt = s.natt := by simp [transmitByte]
@[simp] theorem transmitByte_lastErr (s : State) : (transmitByte s).lastErr = s.lastErr := by simp [transmitByte]
@[simp] theorem transmitByte_txi (s : State) : (transmitByte s).txi = s.txi + 1 := by simp [transmitByte]
@[simp] theorem transmitByte_t0 (s : State) : (transmitByte s).t0 = s.t0 := by simp [transmitByte]
@[simp] theorem transmitByte_dl (s : State) : (transmitByte s).dl = s.now + s.l.cp.wrto := by simp [transmitByte]
@[simp] theorem transmitByte_qdl (s : State) : (transmitByte s).qdl = s.qdl := by simp [transmitByte]
@[simp] theorem transmitByte_frame (s : State) : (transmitByte s).frame = s.frame := by simp [transmitByte]
@[simp] theorem transmitByte_flen (s : State) : (transmitByte s).flen = s.flen := by simp [transmitByte]
@[simp] theorem transmitByte_trace (s : State) : (transmitByte s).trace = s.trace := by simp [transmitByte]
@[simp] theorem transmitByte_tlen (s : State) : (transmitByte s).tlen = s.tlen := by simp [transmitByte]
@[simp] theorem transmitByte_rxq (s : State) : (transmitByte s).rxq = s.rxq := by simp [transmitByte]
@[simp] theorem transmitByte_ok (s : State) : (transmitByte s).ok = s.ok := by simp [transmitByte]
@[simp] theorem transmitByte_errkind (s : State) : (transmitByte s).errkind = s.errkind := by simp [transmitByte]
@[simp] theorem transmitByte_succkind (s : State) : (transmitByte s).succkind = s.succkind := by simp [transmitByte]
@[simp] theorem transmitByte_elapsed (s : State) : (transmitByte s).elapsed = s.elapsed := by simp [transmitByte]
@[simp] theorem transmitByte_attempts (s : State) : (transmitByte s).attempts = s.attempts := by simp [transmitByte]
@[simp] theorem transmitByte_expn (s : State) : (transmitByte s).expn = s.expn := by simp [transmitByte]
@[simp] theorem transmitByte_gotn (s : State) : (transmitByte s).gotn = s.gotn := by simp [transmitByte]
@[simp] theorem transmitByte_ck (s : State) : (transmitByte s).ck = s.ck := by simp [transmitByte]
@[simp] theorem transmitByte_derr (s : State) : (transmitByte s).derr = s.derr := by simp [transmitByte]
@[simp] theorem transmitByte_vres (s : State) : (transmitByte s).vres = s.vres := by simp [transmitByte]
@[simp] theorem transmitByte_busy (s : State) : (transmitByte s).busy = s.busy := by simp [transmitByte]
@[simp] theorem transmitByte_done (s : State) : (transmitByte s).done = s.done := by simp [transmitByte]
@[simp] theorem transmitByte_cmderr (s : State) : (transmitByte s).cmderr = s.cmderr := by simp [transmitByte]
@[simp] theorem transmitByte_cfgmiss (s : State) : (transmitByte s).cfgmiss = s.cfgmiss := by simp [transmitByte]
@[simp] theorem transmitByte_owned (s : State) : (transmitByte s).owned = s.owned := by simp [transmitByte]
@[simp] theorem transmitByte_rxovr (s : State) : (transmitByte s).rxovr = s.rxovr := by simp [transmitByte]
@[simp] theorem transmitByte_ctlLine (s : State) : (transmitByte s).ctlLine = s.ctlLine := by simp [transmitByte]
@[simp] theorem transmitByte_tpReq (s : State) : (transmitByte s).tpReq = s.tpReq := by simp [transmitByte]
@[simp] theorem transmitByte_txByte (s : State) :
    (transmitByte s).txByte = readCell s .frame s.txi := by simp [transmitByte]
@[simp] theorem transmitByte_txValid (s : State) : (transmitByte s).txValid = true := by simp [transmitByte]
@[simp] theorem transmitByte_evt (s : State) :
    (transmitByte s).evt = s.evt ++ [⟨s.now, .tx (readCell s .frame s.txi)⟩] := by simp [transmitByte]
@[simp] theorem transmitByte_now (s : State) : (transmitByte s).now = s.now := by simp [transmitByte]
@[simp] theorem transmitByte_txReady (s : State) : (transmitByte s).txReady = s.txReady := by simp [transmitByte]
@[simp] theorem transmitByte_tpAns (s : State) : (transmitByte s).tpAns = s.tpAns := by simp [transmitByte]
@[simp] theorem transmitByte_tpFault (s : State) : (transmitByte s).tpFault = s.tpFault := by simp [transmitByte]
@[simp] theorem transmitByte_resetHeld (s : State) :
    (transmitByte s).resetHeld = s.resetHeld := by simp [transmitByte]
@[simp] theorem transmitByte_txStream (s : State) :
    (transmitByte s).txStream = s.txStream ++ [readCell s .frame s.txi] := by simp [transmitByte]
@[simp] theorem transmitByte_rxStream (s : State) : (transmitByte s).rxStream = s.rxStream := by simp [transmitByte]
@[simp] theorem transmitByte_script (s : State) : (transmitByte s).script = s.script := by simp [transmitByte]
@[simp] theorem transmitByte_rdata (s : State) : (transmitByte s).rdata = s.rdata := by simp [transmitByte]
@[simp] theorem transmitByte_freeCtr (s : State) : (transmitByte s).freeCtr = s.freeCtr := by simp [transmitByte]
@[simp] theorem transmitByte_epoch (s : State) : (transmitByte s).epoch = s.epoch := by simp [transmitByte]

/-! ### `enterRead` -/

@[simp] theorem enterRead_cmd (s : State) : (enterRead s).cmd = s.cmd := by simp [enterRead]
@[simp] theorem enterRead_payload (s : State) : (enterRead s).payload = s.payload := by simp [enterRead]
@[simp] theorem enterRead_plen (s : State) : (enterRead s).plen = s.plen := by simp [enterRead]
@[simp] theorem enterRead_expbytes (s : State) : (enterRead s).expbytes = s.expbytes := by simp [enterRead]
@[simp] theorem enterRead_rdto (s : State) : (enterRead s).rdto = s.rdto := by simp [enterRead]
@[simp] theorem enterRead_cp (s : State) : (enterRead s).cp = s.cp := by simp [enterRead]
@[simp] theorem enterRead_vpfx (s : State) : (enterRead s).vpfx = s.vpfx := by simp [enterRead]
@[simp] theorem enterRead_vplen (s : State) : (enterRead s).vplen = s.vplen := by simp [enterRead]
@[simp] theorem enterRead_vpfxen (s : State) : (enterRead s).vpfxen = s.vpfxen := by simp [enterRead]
@[simp] theorem enterRead_vsub (s : State) : (enterRead s).vsub = s.vsub := by simp [enterRead]
@[simp] theorem enterRead_vslen (s : State) : (enterRead s).vslen = s.vslen := by simp [enterRead]
@[simp] theorem enterRead_vsuben (s : State) : (enterRead s).vsuben = s.vsuben := by simp [enterRead]
@[simp] theorem enterRead_cfg (s : State) : (enterRead s).cfg = s.cfg := by simp [enterRead]
@[simp] theorem enterRead_l (s : State) : (enterRead s).l = s.l := by simp [enterRead]
@[simp] theorem enterRead_st (s : State) : (enterRead s).st = readEntryState s := by simp [enterRead]
@[simp] theorem enterRead_attempt (s : State) : (enterRead s).attempt = s.attempt := by simp [enterRead]
@[simp] theorem enterRead_natt (s : State) : (enterRead s).natt = s.natt := by simp [enterRead]
@[simp] theorem enterRead_lastErr (s : State) : (enterRead s).lastErr = s.lastErr := by simp [enterRead]
@[simp] theorem enterRead_txi (s : State) : (enterRead s).txi = s.txi := by simp [enterRead]
@[simp] theorem enterRead_t0 (s : State) : (enterRead s).t0 = s.t0 := by simp [enterRead]
@[simp] theorem enterRead_dl (s : State) : (enterRead s).dl = s.now + s.l.rdto := by simp [enterRead]
@[simp] theorem enterRead_qdl (s : State) : (enterRead s).qdl = s.qdl := by simp [enterRead]
@[simp] theorem enterRead_frame (s : State) : (enterRead s).frame = s.frame := by simp [enterRead]
@[simp] theorem enterRead_flen (s : State) : (enterRead s).flen = s.flen := by simp [enterRead]
@[simp] theorem enterRead_trace (s : State) : (enterRead s).trace = s.trace := by simp [enterRead]
@[simp] theorem enterRead_tlen (s : State) : (enterRead s).tlen = s.tlen := by simp [enterRead]
@[simp] theorem enterRead_rxq (s : State) : (enterRead s).rxq = s.rxq := by simp [enterRead]
@[simp] theorem enterRead_ok (s : State) : (enterRead s).ok = s.ok := by simp [enterRead]
@[simp] theorem enterRead_errkind (s : State) : (enterRead s).errkind = s.errkind := by simp [enterRead]
@[simp] theorem enterRead_succkind (s : State) : (enterRead s).succkind = s.succkind := by simp [enterRead]
@[simp] theorem enterRead_elapsed (s : State) : (enterRead s).elapsed = s.elapsed := by simp [enterRead]
@[simp] theorem enterRead_attempts (s : State) : (enterRead s).attempts = s.attempts := by simp [enterRead]
@[simp] theorem enterRead_expn (s : State) : (enterRead s).expn = s.expn := by simp [enterRead]
@[simp] theorem enterRead_gotn (s : State) : (enterRead s).gotn = s.gotn := by simp [enterRead]
@[simp] theorem enterRead_ck (s : State) : (enterRead s).ck = s.ck := by simp [enterRead]
@[simp] theorem enterRead_derr (s : State) : (enterRead s).derr = s.derr := by simp [enterRead]
@[simp] theorem enterRead_vres (s : State) : (enterRead s).vres = s.vres := by simp [enterRead]
@[simp] theorem enterRead_busy (s : State) : (enterRead s).busy = s.busy := by simp [enterRead]
@[simp] theorem enterRead_done (s : State) : (enterRead s).done = s.done := by simp [enterRead]
@[simp] theorem enterRead_cmderr (s : State) : (enterRead s).cmderr = s.cmderr := by simp [enterRead]
@[simp] theorem enterRead_cfgmiss (s : State) : (enterRead s).cfgmiss = s.cfgmiss := by simp [enterRead]
@[simp] theorem enterRead_owned (s : State) : (enterRead s).owned = s.owned := by simp [enterRead]
@[simp] theorem enterRead_rxovr (s : State) : (enterRead s).rxovr = s.rxovr := by simp [enterRead]
@[simp] theorem enterRead_ctlLine (s : State) : (enterRead s).ctlLine = s.ctlLine := by simp [enterRead]
@[simp] theorem enterRead_tpReq (s : State) : (enterRead s).tpReq = s.tpReq := by simp [enterRead]
@[simp] theorem enterRead_txByte (s : State) : (enterRead s).txByte = s.txByte := by simp [enterRead]
@[simp] theorem enterRead_txValid (s : State) : (enterRead s).txValid = s.txValid := by simp [enterRead]
@[simp] theorem enterRead_evt (s : State) :
    (enterRead s).evt = s.evt ++ [⟨s.now, .readStart (readMode s.l) (s.now + s.l.rdto)⟩] := by simp [enterRead]
@[simp] theorem enterRead_now (s : State) : (enterRead s).now = s.now := by simp [enterRead]
@[simp] theorem enterRead_txReady (s : State) : (enterRead s).txReady = s.txReady := by simp [enterRead]
@[simp] theorem enterRead_tpAns (s : State) : (enterRead s).tpAns = s.tpAns := by simp [enterRead]
@[simp] theorem enterRead_tpFault (s : State) : (enterRead s).tpFault = s.tpFault := by simp [enterRead]
@[simp] theorem enterRead_resetHeld (s : State) : (enterRead s).resetHeld = s.resetHeld := by simp [enterRead]
@[simp] theorem enterRead_txStream (s : State) : (enterRead s).txStream = s.txStream := by simp [enterRead]
@[simp] theorem enterRead_rxStream (s : State) : (enterRead s).rxStream = s.rxStream := by simp [enterRead]
@[simp] theorem enterRead_script (s : State) : (enterRead s).script = s.script := by simp [enterRead]
@[simp] theorem enterRead_rdata (s : State) : (enterRead s).rdata = s.rdata := by simp [enterRead]
@[simp] theorem enterRead_freeCtr (s : State) : (enterRead s).freeCtr = s.freeCtr := by simp [enterRead]
@[simp] theorem enterRead_epoch (s : State) : (enterRead s).epoch = s.epoch := by simp [enterRead]

/-! ### `shortRead` -/

@[simp] theorem shortRead_cmd (s : State) : (shortRead s).cmd = s.cmd := by simp [shortRead]
@[simp] theorem shortRead_payload (s : State) : (shortRead s).payload = s.payload := by simp [shortRead]
@[simp] theorem shortRead_plen (s : State) : (shortRead s).plen = s.plen := by simp [shortRead]
@[simp] theorem shortRead_expbytes (s : State) : (shortRead s).expbytes = s.expbytes := by simp [shortRead]
@[simp] theorem shortRead_rdto (s : State) : (shortRead s).rdto = s.rdto := by simp [shortRead]
@[simp] theorem shortRead_cp (s : State) : (shortRead s).cp = s.cp := by simp [shortRead]
@[simp] theorem shortRead_vpfx (s : State) : (shortRead s).vpfx = s.vpfx := by simp [shortRead]
@[simp] theorem shortRead_vplen (s : State) : (shortRead s).vplen = s.vplen := by simp [shortRead]
@[simp] theorem shortRead_vpfxen (s : State) : (shortRead s).vpfxen = s.vpfxen := by simp [shortRead]
@[simp] theorem shortRead_vsub (s : State) : (shortRead s).vsub = s.vsub := by simp [shortRead]
@[simp] theorem shortRead_vslen (s : State) : (shortRead s).vslen = s.vslen := by simp [shortRead]
@[simp] theorem shortRead_vsuben (s : State) : (shortRead s).vsuben = s.vsuben := by simp [shortRead]
@[simp] theorem shortRead_cfg (s : State) : (shortRead s).cfg = s.cfg := by simp [shortRead]
@[simp] theorem shortRead_l (s : State) : (shortRead s).l = s.l := by simp [shortRead]
@[simp] theorem shortRead_st (s : State) : (shortRead s).st = .failed := by simp [shortRead]
@[simp] theorem shortRead_attempt (s : State) : (shortRead s).attempt = s.attempt := by simp [shortRead]
@[simp] theorem shortRead_natt (s : State) : (shortRead s).natt = s.natt := by simp [shortRead]
@[simp] theorem shortRead_lastErr (s : State) : (shortRead s).lastErr = .readTimeout := by simp [shortRead]
@[simp] theorem shortRead_txi (s : State) : (shortRead s).txi = s.txi := by simp [shortRead]
@[simp] theorem shortRead_t0 (s : State) : (shortRead s).t0 = s.t0 := by simp [shortRead]
@[simp] theorem shortRead_dl (s : State) : (shortRead s).dl = s.dl := by simp [shortRead]
@[simp] theorem shortRead_qdl (s : State) : (shortRead s).qdl = s.qdl := by simp [shortRead]
@[simp] theorem shortRead_frame (s : State) : (shortRead s).frame = s.frame := by simp [shortRead]
@[simp] theorem shortRead_flen (s : State) : (shortRead s).flen = s.flen := by simp [shortRead]
@[simp] theorem shortRead_trace (s : State) : (shortRead s).trace = s.trace := by simp [shortRead]
@[simp] theorem shortRead_tlen (s : State) : (shortRead s).tlen = s.tlen := by simp [shortRead]
@[simp] theorem shortRead_rxq (s : State) : (shortRead s).rxq = [] := by simp [shortRead]
@[simp] theorem shortRead_ok (s : State) : (shortRead s).ok = s.ok := by simp [shortRead]
@[simp] theorem shortRead_errkind (s : State) : (shortRead s).errkind = s.errkind := by simp [shortRead]
@[simp] theorem shortRead_succkind (s : State) : (shortRead s).succkind = s.succkind := by simp [shortRead]
@[simp] theorem shortRead_elapsed (s : State) : (shortRead s).elapsed = s.elapsed := by simp [shortRead]
@[simp] theorem shortRead_attempts (s : State) : (shortRead s).attempts = s.attempts := by simp [shortRead]
@[simp] theorem shortRead_expn (s : State) : (shortRead s).expn = s.l.expbytes := by simp [shortRead]
@[simp] theorem shortRead_gotn (s : State) : (shortRead s).gotn = s.tlen := by simp [shortRead]
@[simp] theorem shortRead_ck (s : State) : (shortRead s).ck = s.ck := by simp [shortRead]
@[simp] theorem shortRead_derr (s : State) : (shortRead s).derr = s.derr := by simp [shortRead]
@[simp] theorem shortRead_vres (s : State) : (shortRead s).vres = s.vres := by simp [shortRead]
@[simp] theorem shortRead_busy (s : State) : (shortRead s).busy = s.busy := by simp [shortRead]
@[simp] theorem shortRead_done (s : State) : (shortRead s).done = s.done := by simp [shortRead]
@[simp] theorem shortRead_cmderr (s : State) : (shortRead s).cmderr = s.cmderr := by simp [shortRead]
@[simp] theorem shortRead_cfgmiss (s : State) : (shortRead s).cfgmiss = s.cfgmiss := by simp [shortRead]
@[simp] theorem shortRead_owned (s : State) : (shortRead s).owned = s.owned := by simp [shortRead]
@[simp] theorem shortRead_rxovr (s : State) : (shortRead s).rxovr = false := by simp [shortRead]
@[simp] theorem shortRead_ctlLine (s : State) : (shortRead s).ctlLine = s.ctlLine := by simp [shortRead]
@[simp] theorem shortRead_tpReq (s : State) : (shortRead s).tpReq = s.tpReq := by simp [shortRead]
@[simp] theorem shortRead_txByte (s : State) : (shortRead s).txByte = s.txByte := by simp [shortRead]
@[simp] theorem shortRead_txValid (s : State) : (shortRead s).txValid = s.txValid := by simp [shortRead]
@[simp] theorem shortRead_evt (s : State) : (shortRead s).evt = s.evt ++ [⟨s.now, .shortRead s.l.expbytes s.tlen⟩] ++ [⟨s.now, .purge⟩] ++
      [⟨s.now, .attemptFail .readTimeout (.counts s.l.expbytes s.tlen)⟩] := by simp [shortRead]
@[simp] theorem shortRead_now (s : State) : (shortRead s).now = s.now := by simp [shortRead]
@[simp] theorem shortRead_txReady (s : State) : (shortRead s).txReady = s.txReady := by simp [shortRead]
@[simp] theorem shortRead_tpAns (s : State) : (shortRead s).tpAns = s.tpAns := by simp [shortRead]
@[simp] theorem shortRead_tpFault (s : State) : (shortRead s).tpFault = s.tpFault := by simp [shortRead]
@[simp] theorem shortRead_resetHeld (s : State) : (shortRead s).resetHeld = s.resetHeld := by simp [shortRead]
@[simp] theorem shortRead_txStream (s : State) : (shortRead s).txStream = s.txStream := by simp [shortRead]
@[simp] theorem shortRead_rxStream (s : State) : (shortRead s).rxStream = s.rxStream := by simp [shortRead]
@[simp] theorem shortRead_script (s : State) : (shortRead s).script = s.script := by simp [shortRead]
@[simp] theorem shortRead_rdata (s : State) : (shortRead s).rdata = s.rdata := by simp [shortRead]
@[simp] theorem shortRead_freeCtr (s : State) : (shortRead s).freeCtr = s.freeCtr := by simp [shortRead]
@[simp] theorem shortRead_epoch (s : State) : (shortRead s).epoch = s.epoch := by simp [shortRead]

/-! ### `tick` -/

@[simp] theorem tick_cmd (s : State) : (tick s).cmd = s.cmd := rfl
@[simp] theorem tick_payload (s : State) : (tick s).payload = s.payload := rfl
@[simp] theorem tick_plen (s : State) : (tick s).plen = s.plen := rfl
@[simp] theorem tick_expbytes (s : State) : (tick s).expbytes = s.expbytes := rfl
@[simp] theorem tick_rdto (s : State) : (tick s).rdto = s.rdto := rfl
@[simp] theorem tick_cp (s : State) : (tick s).cp = s.cp := rfl
@[simp] theorem tick_vpfx (s : State) : (tick s).vpfx = s.vpfx := rfl
@[simp] theorem tick_vplen (s : State) : (tick s).vplen = s.vplen := rfl
@[simp] theorem tick_vpfxen (s : State) : (tick s).vpfxen = s.vpfxen := rfl
@[simp] theorem tick_vsub (s : State) : (tick s).vsub = s.vsub := rfl
@[simp] theorem tick_vslen (s : State) : (tick s).vslen = s.vslen := rfl
@[simp] theorem tick_vsuben (s : State) : (tick s).vsuben = s.vsuben := rfl
@[simp] theorem tick_cfg (s : State) : (tick s).cfg = s.cfg := rfl
@[simp] theorem tick_l (s : State) : (tick s).l = s.l := rfl
@[simp] theorem tick_st (s : State) : (tick s).st = s.st := rfl
@[simp] theorem tick_attempt (s : State) : (tick s).attempt = s.attempt := rfl
@[simp] theorem tick_natt (s : State) : (tick s).natt = s.natt := rfl
@[simp] theorem tick_lastErr (s : State) : (tick s).lastErr = s.lastErr := rfl
@[simp] theorem tick_txi (s : State) : (tick s).txi = s.txi := rfl
@[simp] theorem tick_t0 (s : State) : (tick s).t0 = s.t0 := rfl
@[simp] theorem tick_dl (s : State) : (tick s).dl = s.dl := rfl
@[simp] theorem tick_qdl (s : State) : (tick s).qdl = s.qdl := rfl
@[simp] theorem tick_frame (s : State) : (tick s).frame = s.frame := rfl
@[simp] theorem tick_flen (s : State) : (tick s).flen = s.flen := rfl
@[simp] theorem tick_trace (s : State) : (tick s).trace = s.trace := rfl
@[simp] theorem tick_tlen (s : State) : (tick s).tlen = s.tlen := rfl
@[simp] theorem tick_rxq (s : State) : (tick s).rxq = s.rxq := rfl
@[simp] theorem tick_ok (s : State) : (tick s).ok = s.ok := rfl
@[simp] theorem tick_errkind (s : State) : (tick s).errkind = s.errkind := rfl
@[simp] theorem tick_succkind (s : State) : (tick s).succkind = s.succkind := rfl
@[simp] theorem tick_elapsed (s : State) : (tick s).elapsed = s.elapsed := rfl
@[simp] theorem tick_attempts (s : State) : (tick s).attempts = s.attempts := rfl
@[simp] theorem tick_expn (s : State) : (tick s).expn = s.expn := rfl
@[simp] theorem tick_gotn (s : State) : (tick s).gotn = s.gotn := rfl
@[simp] theorem tick_ck (s : State) : (tick s).ck = s.ck := rfl
@[simp] theorem tick_derr (s : State) : (tick s).derr = s.derr := rfl
@[simp] theorem tick_vres (s : State) : (tick s).vres = s.vres := rfl
@[simp] theorem tick_busy (s : State) : (tick s).busy = s.busy := rfl
@[simp] theorem tick_done (s : State) : (tick s).done = s.done := rfl
@[simp] theorem tick_cmderr (s : State) : (tick s).cmderr = s.cmderr := rfl
@[simp] theorem tick_cfgmiss (s : State) : (tick s).cfgmiss = s.cfgmiss := rfl
@[simp] theorem tick_owned (s : State) : (tick s).owned = s.owned := rfl
@[simp] theorem tick_rxovr (s : State) : (tick s).rxovr = s.rxovr := rfl
@[simp] theorem tick_ctlLine (s : State) : (tick s).ctlLine = s.ctlLine := rfl
@[simp] theorem tick_tpReq (s : State) : (tick s).tpReq = s.tpReq := rfl
@[simp] theorem tick_txByte (s : State) : (tick s).txByte = s.txByte := rfl
@[simp] theorem tick_txValid (s : State) : (tick s).txValid = s.txValid := rfl
@[simp] theorem tick_evt (s : State) : (tick s).evt = s.evt := rfl
@[simp] theorem tick_now (s : State) : (tick s).now = s.now + 1 := rfl
@[simp] theorem tick_txReady (s : State) : (tick s).txReady = s.txReady := rfl
@[simp] theorem tick_tpAns (s : State) : (tick s).tpAns = s.tpAns := rfl
@[simp] theorem tick_tpFault (s : State) : (tick s).tpFault = s.tpFault := rfl
@[simp] theorem tick_resetHeld (s : State) : (tick s).resetHeld = s.resetHeld := rfl
@[simp] theorem tick_txStream (s : State) : (tick s).txStream = s.txStream := rfl
@[simp] theorem tick_rxStream (s : State) : (tick s).rxStream = s.rxStream := rfl
@[simp] theorem tick_script (s : State) : (tick s).script = s.script := rfl
@[simp] theorem tick_rdata (s : State) : (tick s).rdata = s.rdata := rfl
@[simp] theorem tick_freeCtr (s : State) : (tick s).freeCtr = s.freeCtr := rfl
@[simp] theorem tick_epoch (s : State) : (tick s).epoch = s.epoch := rfl

end Sys2Proof.Machine
end

