-- ==== Sys2Proof/Laws/Step.lean ====
section
/-! SUPPORT. What one step of the machine can do, said once, and the memory's canonical form at reset and after a host write. -/

namespace Sys2Proof.Machine

/-! ### The memory at reset and after a write -/

theorem reset_memory_wf (b : Buf) : (State.reset.buf b).wf = true := by
  cases b <;> rfl

theorem writeCell_memory_wf (s : State) (b b' : Buf) (i : Nat) (v : Byte) (h : ∀ b, (s.buf b).wf = true) :
    ((writeCell b i v s).buf b').wf = true := by
  unfold writeCell
  rw [buf_setBuf]
  split
  · exact store_wf _ _ _ (h b)
  · exact h b'

/-! ### A step -/

/-- With the reset input released, a step runs the clock or the engine alone, applies a scripted move, or issues a scripted
command. -/
theorem step_cases {s t : State} (hr : s.resetHeld = false) (h : step s = .next t) :
    (s.script = [] ∧ engineStep s = some t) ∨
    (s.script = [] ∧ engineStep s = none ∧ t = tick s) ∨
    (∃ a rest, s.script = .act a :: rest ∧ t = applyAct a { s with script := rest }) ∨
    (∃ c rest i, s.script = .command c :: rest ∧ decode s.expbytes c = .ok i ∧
      t = issueCommand (encode i) (operationOf i) { s with script := rest }) ∨
    (∃ c rest e, s.script = .command c :: rest ∧ decode s.expbytes c = .error e ∧
      t = issueCommand c runNothing { s with script := rest }) := by
  unfold step at h
  split at h
  · rename_i hs
    cases h
    rw [runAlone, if_neg (by simp [hr])]
    cases he : engineStep s with
    | some u => exact .inl ⟨hs, rfl⟩
    | none => exact .inr (.inl ⟨hs, rfl, rfl⟩)
  · rename_i a rest hs
    cases h
    exact .inr (.inr (.inl ⟨a, rest, hs, if_neg (by simp [hr])⟩))
  · rename_i c rest hs
    rw [if_neg (by simp [hr])] at h
    split at h
    · rename_i i hd
      rw [exec_eq] at h
      cases h
      exact .inr (.inr (.inr (.inl ⟨c, rest, i, hs, hd, rfl⟩)))
    · rename_i e hd
      cases h
      exact .inr (.inr (.inr (.inr ⟨c, rest, e, hs, hd, rfl⟩)))

/-- While the reset input is asserted (R300), a step moves the clock, lets an agent move outside the block, or loses a command. -/
theorem step_cases_reset {s t : State} (hr : s.resetHeld = true) (h : step s = .next t) :
    (s.script = [] ∧ t = tick s) ∨
    (∃ a rest, s.script = .act a :: rest ∧ t = actWhileReset a { s with script := rest }) ∨
    (∃ c rest, s.script = .command c :: rest ∧ t = { s with script := rest }) := by
  unfold step at h
  split at h
  · rename_i hs
    cases h
    exact .inl ⟨hs, if_pos hr⟩
  · rename_i a rest hs
    cases h
    exact .inr (.inl ⟨a, rest, hs, if_pos hr⟩)
  · rename_i c rest hs
    rw [if_pos hr] at h
    cases h
    exact .inr (.inr ⟨c, rest, hs, rfl⟩)

/-- While the reset input is asserted, a move changes only what is not the block's state: time, the two input levels, the receive
stream, and the data of a host read. -/
theorem actWhileReset_cases (a : Act) (s : State) (hr : s.resetHeld = true) :
    ∃ (now : Time) (ready level : Bool) (stream : List Byte) (data ctr : Nat), actWhileReset a s =
      { s with
        now := now, txReady := ready, resetHeld := level, rxStream := stream, rdata := data, freeCtr := ctr } := by
  cases a with
  | tick => exact ⟨s.now + 1, s.txReady, s.resetHeld, s.rxStream, s.rdata, s.freeCtr, rfl⟩
  | txReady level => exact ⟨s.now, level, s.resetHeld, s.rxStream, s.rdata, s.freeCtr, rfl⟩
  | rxPush b => exact ⟨s.now, s.txReady, s.resetHeld, s.rxStream ++ [b], s.rdata, s.freeCtr, rfl⟩
  | hostRead r =>
    show ∃ (now : Time) (ready level : Bool) (stream : List Byte) (data ctr : Nat), hostRead r s = _
    rcases hostRead_cases r s with ⟨v, -, e⟩ | ⟨-, e⟩ <;> rw [e]
    · exact ⟨s.now, s.txReady, s.resetHeld, s.rxStream, v, s.freeCtr, rfl⟩
    · exact ⟨s.now, s.txReady, s.resetHeld, s.rxStream, _, s.freeCtr + 1, rfl⟩
  | reset level =>
    refine ⟨s.now, s.txReady, level, s.rxStream, s.rdata, s.freeCtr, if_neg ?_⟩
    simp [hr]
  | engine => exact ⟨s.now, s.txReady, s.resetHeld, s.rxStream, s.rdata, s.freeCtr, rfl⟩
  | tpAnswer a => exact ⟨s.now, s.txReady, s.resetHeld, s.rxStream, s.rdata, s.freeCtr, rfl⟩
  | tpFault => exact ⟨s.now, s.txReady, s.resetHeld, s.rxStream, s.rdata, s.freeCtr, rfl⟩
  | hostWrite w => exact ⟨s.now, s.txReady, s.resetHeld, s.rxStream, s.rdata, s.freeCtr, rfl⟩

/-- The reset input rises in a state with it released, or its level is only stored (R300). -/
theorem setReset_cases (level : Bool) (s : State) :
    (level = true ∧ s.resetHeld = false ∧ setReset level s = assertReset s) ∨
    setReset level s = { s with resetHeld := level } := by
  unfold setReset
  cases level
  · exact .inr rfl
  · by_cases h : s.resetHeld = true
    · exact .inr (if_neg (by simp [h]))
    · exact .inl ⟨rfl, by simpa using h, if_pos (by simpa using h)⟩

/-- A scripted engine move is a row of the table, or nothing where no row is enabled. -/
theorem engineMove_cases (s : State) :
    (∃ t, engineStep s = some t ∧ engineMove s = t) ∨ (engineStep s = none ∧ engineMove s = s) := by
  unfold engineMove
  cases h : engineStep s with
  | some t => exact .inl ⟨t, rfl, rfl⟩
  | none => exact .inr ⟨rfl, rfl⟩

/-- The turn of an agent is that agent's move, if the reset input is released. -/
theorem turn_eq (a : Act) (s : State) (hr : s.resetHeld = false) : s.turn a = .next (applyAct a s) :=
  congrArg _ (if_neg (by simp [hr]))

/-- The turn of an agent under a held reset. -/
theorem turn_eq_reset (a : Act) (s : State) (hr : s.resetHeld = true) : s.turn a = .next (actWhileReset a s) :=
  congrArg _ (if_pos hr)

end Sys2Proof.Machine
end

