-- ==== Sys2Proof/Laws/Invariants.lean ====
section
/-! SUPPORT. One scheme for the invariants of a step: what leaves the outcome and the engine state alone (an operation that is no
exchange, a host write), the start of an exchange, the rows of the engine, and runs of several steps. -/

namespace Sys2Proof.Machine

/-! ### What leaves the engine alone -/

/-- The two states agree on the engine state, the flags and log it writes, and the outcome record. -/
structure SameEngine (s t : State) : Prop where
  busy : t.busy = s.busy
  st : t.st = s.st
  evt : t.evt = s.evt
  attempt : t.attempt = s.attempt
  owned : t.owned = s.owned
  ok : t.ok = s.ok
  errkind : t.errkind = s.errkind
  succkind : t.succkind = s.succkind
  lastErr : t.lastErr = s.lastErr

theorem SameEngine.refl (s : State) : SameEngine s s := ⟨rfl, rfl, rfl, rfl, rfl, rfl, rfl, rfl, rfl⟩

theorem SameEngine.trans {s t u : State} (h : SameEngine s t) (k : SameEngine t u) : SameEngine s u :=
  ⟨k.1.trans h.1, k.2.trans h.2, k.3.trans h.3, k.4.trans h.4, k.5.trans h.5, k.6.trans h.6, k.7.trans h.7,
    k.8.trans h.8, k.9.trans h.9⟩

/-- An accepted exchange starts the engine; the reserved mode runs nothing (R113, R162). -/
theorem exchangeOf_cases (c : Byte) (s : State) :
    (∃ m, modeOfCsm (cmdCsm c) = some m ∧ exchangeOf c s = startExchange c m s) ∨
    (modeOfCsm (cmdCsm c) = none ∧ exchangeOf c s = s) := by
  unfold exchangeOf
  cases h : modeOfCsm (cmdCsm c) with
  | none => exact .inr ⟨rfl, rfl⟩
  | some m => exact .inl ⟨m, rfl, rfl⟩

/-- An operation is an exchange or leaves the engine alone (R13, R130, R220). -/
theorem operationOf_cases (i : Instr) (s : State) :
    (cmdOp (encode i) = 3 ∧ operationOf i = exchangeOf (encode i)) ∨
    (cmdOp (encode i) ≠ 3 ∧ SameEngine s (operationOf i s)) := by
  have dec : ∀ wrap m, SameEngine s (runDecode wrap m s) := by
    intro wrap m
    unfold runDecode
    cases decodeFrame (frameBytes s) wrap m <;> constructor <;> simp [loadDecoded]
  cases i <;> first
    | (left; exact ⟨by simp [encode], rfl⟩)
    | (right; refine ⟨by simp [encode], ?_⟩; first
        | exact dec _ _
        | (constructor <;> simp [operationOf, computeChecksum, runBuild, runPfx, runSub, runNothing]))

/-- A host write leaves the engine alone (R62). -/
theorem performWrite_sameEngine (w : HostWrite) (s : State) : SameEngine s (performWrite w s) := by
  unfold performWrite
  split <;> try split
  all_goals constructor <;> simp [writeCell]

theorem hostWrite_sameEngine (w : HostWrite) (s : State) : SameEngine s (hostWrite w s) := by
  unfold hostWrite
  split
  · exact SameEngine.refl s
  · exact performWrite_sameEngine w s

/-- While host-owned the engine is in `IDLE` or `CLOSED` (R62). -/
theorem OwnershipInv.idle_or_closed {s : State} (h : OwnershipInv s) (hb : s.busy = false) :
    s.st = .idle ∨ s.st = .closed := by
  have := h.busyIff
  rw [hb] at this
  cases hs : s.st <;> simp [hs, EngState.engineOwned] at this ⊢

/-! ### A step keeps what each move keeps -/

theorem applyAct_keeps (C I : State → Prop) (same : ∀ s t, I s → SameEngine s t → I t)
    (ready : ∀ s, C s → C { s with txValid := false })
    (row : ∀ s t, C s → I s → EngineRow s t → I t) (reset : ∀ s, I (assertReset s))
    (a : Act) (s : State) (hC : C s) (hI : I s) : I (applyAct a s) := by
  cases a with
  | engine =>
    show I (engineMove s)
    rcases engineMove_cases s with ⟨t, h1, h2⟩ | ⟨-, h2⟩ <;> rw [h2]
    · exact row _ _ (ready _ hC) (same _ _ hI (by constructor <;> simp)) (engineStep_row h1)
    · exact hI
  | tick => exact same _ _ hI (by constructor <;> simp [applyAct])
  | rxPush b =>
    show I (rxPush b s)
    rcases rxPush_cases b s with ⟨-, e⟩ | ⟨-, e⟩ <;> rw [e] <;> exact same _ _ hI (by constructor <;> simp)
  | tpAnswer a =>
    show I (tpAnswer a s)
    rcases tpAnswer_cases a s with ⟨-, e⟩ | e <;> rw [e]
    · exact same _ _ hI (by constructor <;> simp)
    · exact hI
  | tpFault =>
    show I (tpFaultMove s)
    rcases tpFaultMove_cases s with ⟨-, e⟩ | e <;> rw [e]
    · exact same _ _ hI (by constructor <;> simp)
    · exact hI
  | txReady l => exact same _ _ hI (by constructor <;> simp [applyAct, setTxReady])
  | hostWrite w => exact same _ _ hI (hostWrite_sameEngine w s)
  | hostRead r =>
    show I (hostRead r s)
    rcases hostRead_cases r s with ⟨v, -, e⟩ | ⟨-, e⟩ <;> rw [e] <;> exact same _ _ hI (by constructor <;> simp)
  | reset level =>
    show I (setReset level s)
    rcases setReset_cases level s with ⟨-, -, e⟩ | e <;> rw [e]
    · exact reset s
    · exact same _ _ hI (by constructor <;> simp)

/-- A move under a held reset leaves the engine alone (R300). -/
theorem actWhileReset_sameEngine (a : Act) (s : State) (hr : s.resetHeld = true) : SameEngine s (actWhileReset a s) := by
  obtain ⟨_, _, _, _, _, _, e⟩ := actWhileReset_cases a s hr
  rw [e]
  constructor <;> rfl

theorem issueCommand_keeps (I : State → Prop) (same : ∀ s t, I s → SameEngine s t → I t) (c : Byte)
    (run : State → State) (s : State) (hI : I s)
    (hr : s.busy = false → refusalOf c s = none → I (run (accept (takeCommand c s)))) :
    I (issueCommand c run s) := by
  rcases issueCommand_cases c run s with ⟨-, e⟩ | ⟨-, -, e⟩ | ⟨-, -, -, e⟩ | ⟨hn, -, e⟩ <;> rw [e]
  · exact same _ _ hI (by constructor <;> simp)
  · exact same _ _ hI (by constructor <;> simp)
  · exact same _ _ hI (by constructor <;> simp)
  · exact hr ((refusalOf_eq_none _ _).1 hn).1 hn

/-- A property of the engine's fields is kept by every step if the rows of the engine, the start of an exchange and reset keep it,
in a context that the script and `tx_valid` do not touch. -/
theorem step_keeps (C I : State → Prop) (same : ∀ s t, I s → SameEngine s t → I t)
    (script : ∀ s r, C s → C { s with script := r }) (ready : ∀ s, C s → C { s with txValid := false })
    (row : ∀ s t, C s → I s → EngineRow s t → I t)
    (start : ∀ s c m, C s → I s → s.busy = false → I (startExchange c m (accept (takeCommand c s))))
    (reset : ∀ s, I (assertReset s)) (s t : State) (hC : C s) (hI : I s) (h : step s = .next t) : I t := by
  have hI' : ∀ r, I { s with script := r } := fun r => same _ _ hI (by constructor <;> simp)
  by_cases hr : s.resetHeld = true
  · rcases step_cases_reset hr h with ⟨-, e⟩ | ⟨a, rest, -, e⟩ | ⟨c, rest, -, e⟩ <;> rw [e]
    · exact same _ _ hI (by constructor <;> simp)
    · exact same _ _ (hI' rest) (actWhileReset_sameEngine a _ hr)
    · exact hI' rest
  rcases step_cases (by simpa using hr) h with ⟨-, e⟩ | ⟨-, -, e⟩ | ⟨a, rest, -, e⟩ | ⟨c, rest, i, -, -, e⟩ | ⟨c, rest, _, -, -, e⟩
  · exact row _ _ (ready _ hC) (same _ _ hI (by constructor <;> simp)) (engineStep_row e)
  · rw [e]; exact same _ _ hI (by constructor <;> simp)
  · rw [e]; exact applyAct_keeps C I same ready row reset a _ (script _ rest hC) (hI' rest)
  · rw [e]
    have hC := script _ rest hC
    have hI := hI' rest
    generalize ({ s with script := rest } : State) = s at hC hI
    refine issueCommand_keeps I same _ _ _ hI (fun hb _ => ?_)
    have hI2 : I (accept (takeCommand (encode i) s)) := same _ _ hI (by constructor <;> simp)
    rcases operationOf_cases i (accept (takeCommand (encode i) s)) with ⟨-, e⟩ | ⟨-, e⟩
    · rw [e]
      rcases exchangeOf_cases (encode i) (accept (takeCommand (encode i) s)) with ⟨m, -, e⟩ | ⟨-, e⟩ <;> rw [e]
      · exact start _ _ _ hC hI hb
      · exact hI2
    · exact same _ _ hI2 e
  · rw [e]
    exact issueCommand_keeps I same _ _ _ (hI' rest)
      (fun _ _ => same _ _ (hI' rest) (by constructor <;> simp [runNothing]))

/-! ### Runs -/

theorem run_succ (M : Host.Core) (k : Nat) {s t : M.State} (h : M.step s = .next t) : M.run (k + 1) s = M.run k t := by
  rw [Host.Core.run, h]

theorem run_add (M : Host.Core) (n k : Nat) {s t : M.State} (h : M.run n s = .next t) : M.run (n + k) s = M.run k t := by
  induction n generalizing s with
  | zero => rw [Host.Core.run] at h; cases h; simp
  | succ n ih =>
    rw [Host.Core.run] at h
    rw [show n + 1 + k = (n + k) + 1 by omega]
    cases hs : M.step s with
    | next u => rw [hs] at h; rw [run_succ M _ hs]; exact ih h
    | fault r => rw [hs] at h; cases h
    | refused r => rw [hs] at h; cases h

end Sys2Proof.Machine
end

