-- ==== Sys2Proof/Laws/PerInstr.lean ====
section
/-! SUPPORT. Statements made instruction by instruction: the family `TableRow`, that the encoding of an instruction lies in its
row of the opcode table. -/

namespace Sys2Proof.Laws

/-- The mask and match of the instruction's row in `opcode_table.json` (R121). -/
def tableRow : Instr → Byte × Byte
  | .csumNone _ _ _ => (0xE3, 0x00)
  | .csumXor7 _ _ _ => (0xE3, 0x01)
  | .csumSum8 _ _ _ => (0xE3, 0x02)
  | .buildUNone _ _ => (0xEB, 0x20)
  | .buildUXor7 _ _ => (0xEB, 0x21)
  | .buildUSum8 _ _ => (0xEB, 0x22)
  | .buildWNone _ _ => (0xEB, 0x28)
  | .buildWXor7 _ _ => (0xEB, 0x29)
  | .buildWSum8 _ _ => (0xEB, 0x2A)
  | .decodeUNone _ _ => (0xEB, 0x40)
  | .decodeUXor7 _ _ => (0xEB, 0x41)
  | .decodeUSum8 _ _ => (0xEB, 0x42)
  | .decodeWNone _ _ => (0xEB, 0x48)
  | .decodeWXor7 _ _ => (0xEB, 0x49)
  | .decodeWSum8 _ _ => (0xEB, 0x4A)
  | .xchgFF _ _ _ => (0xF0, 0x60)
  | .xchgN _ _ _ => (0xF0, 0x60)
  | .xchgAN _ _ _ => (0xF0, 0x70)
  | .xchgAD _ _ => (0xF8, 0x78)
  | .xchgAB _ _ => (0xF8, 0x70)
  | .pfx _ => (0xE0, 0x80)
  | .sub _ => (0xE0, 0xA0)
  | .reservedOp6 _ => (0xE0, 0xC0)
  | .reservedOp7 _ => (0xE0, 0xE0)

/-- A command byte selects the row when `c & mask = match` (R121). -/
def TableRow.Statement (i : Instr) : Prop := encode i &&& (tableRow i).1 = (tableRow i).2

theorem TableRow.csumNone (ack wrap val : Bool) : TableRow.Statement (.csumNone ack wrap val) := by
  unfold TableRow.Statement; revert ack wrap val; decide

theorem TableRow.csumXor7 (ack wrap val : Bool) : TableRow.Statement (.csumXor7 ack wrap val) := by
  unfold TableRow.Statement; revert ack wrap val; decide

theorem TableRow.csumSum8 (ack wrap val : Bool) : TableRow.Statement (.csumSum8 ack wrap val) := by
  unfold TableRow.Statement; revert ack wrap val; decide

theorem TableRow.buildUNone (ack val : Bool) : TableRow.Statement (.buildUNone ack val) := by
  unfold TableRow.Statement; revert ack val; decide

theorem TableRow.buildUXor7 (ack val : Bool) : TableRow.Statement (.buildUXor7 ack val) := by
  unfold TableRow.Statement; revert ack val; decide

theorem TableRow.buildUSum8 (ack val : Bool) : TableRow.Statement (.buildUSum8 ack val) := by
  unfold TableRow.Statement; revert ack val; decide

theorem TableRow.buildWNone (ack val : Bool) : TableRow.Statement (.buildWNone ack val) := by
  unfold TableRow.Statement; revert ack val; decide

theorem TableRow.buildWXor7 (ack val : Bool) : TableRow.Statement (.buildWXor7 ack val) := by
  unfold TableRow.Statement; revert ack val; decide

theorem TableRow.buildWSum8 (ack val : Bool) : TableRow.Statement (.buildWSum8 ack val) := by
  unfold TableRow.Statement; revert ack val; decide

theorem TableRow.decodeUNone (ack val : Bool) : TableRow.Statement (.decodeUNone ack val) := by
  unfold TableRow.Statement; revert ack val; decide

theorem TableRow.decodeUXor7 (ack val : Bool) : TableRow.Statement (.decodeUXor7 ack val) := by
  unfold TableRow.Statement; revert ack val; decide

theorem TableRow.decodeUSum8 (ack val : Bool) : TableRow.Statement (.decodeUSum8 ack val) := by
  unfold TableRow.Statement; revert ack val; decide

theorem TableRow.decodeWNone (ack val : Bool) : TableRow.Statement (.decodeWNone ack val) := by
  unfold TableRow.Statement; revert ack val; decide

theorem TableRow.decodeWXor7 (ack val : Bool) : TableRow.Statement (.decodeWXor7 ack val) := by
  unfold TableRow.Statement; revert ack val; decide

theorem TableRow.decodeWSum8 (ack val : Bool) : TableRow.Statement (.decodeWSum8 ack val) := by
  unfold TableRow.Statement; revert ack val; decide

theorem TableRow.xchgFF (wrap val : Bool) (csm : BitVec 2) : TableRow.Statement (.xchgFF wrap val csm) := by
  unfold TableRow.Statement; revert wrap val csm; decide

theorem TableRow.xchgN (wrap val : Bool) (csm : BitVec 2) : TableRow.Statement (.xchgN wrap val csm) := by
  unfold TableRow.Statement; revert wrap val csm; decide

theorem TableRow.xchgAN (wrap val : Bool) (csm : BitVec 2) : TableRow.Statement (.xchgAN wrap val csm) := by
  unfold TableRow.Statement; revert wrap val csm; decide

theorem TableRow.xchgAD (val : Bool) (csm : BitVec 2) : TableRow.Statement (.xchgAD val csm) := by
  unfold TableRow.Statement; revert val csm; decide

theorem TableRow.xchgAB (val : Bool) (csm : BitVec 2) : TableRow.Statement (.xchgAB val csm) := by
  unfold TableRow.Statement; revert val csm; decide

theorem TableRow.pfx (low : BitVec 5) : TableRow.Statement (.pfx low) := by
  unfold TableRow.Statement; revert low; decide

theorem TableRow.sub (low : BitVec 5) : TableRow.Statement (.sub low) := by
  unfold TableRow.Statement; revert low; decide

theorem TableRow.reservedOp6 (low : BitVec 5) : TableRow.Statement (.reservedOp6 low) := by
  unfold TableRow.Statement; revert low; decide

theorem TableRow.reservedOp7 (low : BitVec 5) : TableRow.Statement (.reservedOp7 low) := by
  unfold TableRow.Statement; revert low; decide

end Sys2Proof.Laws
end

