-- ==== Sys2Proof/Tests/Slice0.lean ====
section
/-! SUPPORT. The model's own tests. Expected values are from `95_test_vectors.md` (the vector is named) or worked out from the
rule named; words are written out from the patterns of R111. The last part gives, for each statement with hypotheses, states and
operands that meet them. -/

namespace Sys2Proof.Tests

open Sys2Proof Sys2Proof.Machine

/-! ### Decoding: one written-out word for each form (R111) -/

theorem test_decode_csumNone : decode 0 0b00001100 = .ok (.csumNone false true true) := by decide
theorem test_decode_csumXor7 : decode 0 0b00011101 = .ok (.csumXor7 true true true) := by decide
theorem test_decode_csumSum8 : decode 0 0b00010010 = .ok (.csumSum8 true false false) := by decide
theorem test_decode_buildUNone : decode 0 0b00110000 = .ok (.buildUNone true false) := by decide
theorem test_decode_buildUXor7 : decode 0 0b00100101 = .ok (.buildUXor7 false true) := by decide
theorem test_decode_buildUSum8 : decode 0 0b00100010 = .ok (.buildUSum8 false false) := by decide
theorem test_decode_buildWNone : decode 0 0b00101000 = .ok (.buildWNone false false) := by decide
theorem test_decode_buildWXor7 : decode 0 0b00111001 = .ok (.buildWXor7 true false) := by decide
theorem test_decode_buildWSum8 : decode 0 0b00111110 = .ok (.buildWSum8 true true) := by decide
theorem test_decode_decodeUNone : decode 0 0b01000100 = .ok (.decodeUNone false true) := by decide
theorem test_decode_decodeUXor7 : decode 0 0b01000001 = .ok (.decodeUXor7 false false) := by decide
theorem test_decode_decodeUSum8 : decode 0 0b01010010 = .ok (.decodeUSum8 true false) := by decide
theorem test_decode_decodeWNone : decode 0 0b01001000 = .ok (.decodeWNone false false) := by decide
theorem test_decode_decodeWXor7 : decode 0 0b01001101 = .ok (.decodeWXor7 false true) := by decide
theorem test_decode_decodeWSum8 : decode 0 0b01011010 = .ok (.decodeWSum8 true false) := by decide
theorem test_decode_xchgFF : decode 0 0b01101010 = .ok (.xchgFF true false 2) := by decide
theorem test_decode_xchgN : decode 2 0b01100100 = .ok (.xchgN false true 0) := by decide
theorem test_decode_xchgAN : decode 3 0b01110001 = .ok (.xchgAN false false 1) := by decide
theorem test_decode_xchgAD : decode 0 0b01111010 = .ok (.xchgAD false 2) := by decide
theorem test_decode_xchgAB : decode 0 0b01110100 = .ok (.xchgAB true 0) := by decide
theorem test_decode_pfx : decode 0 0b10000011 = .ok (.pfx 3) := by decide
theorem test_decode_sub : decode 0 0b10111111 = .ok (.sub 31) := by decide
theorem test_decode_reservedOp6 : decode 0 0b11000000 = .ok (.reservedOp6 0) := by decide
theorem test_decode_reservedOp7 : decode 0 0b11111111 = .ok (.reservedOp7 31) := by decide

/-- `CSM = 3` with `CSUM`, `BUILD` or `DECODE` is in no row of the table (R111, R113). -/
theorem test_decode_reservedCsm : decode 0 0b00000011 = .error .reservedCsm ∧
    decode 0 0b00101011 = .error .reservedCsm ∧ decode 0 0b01000011 = .error .reservedCsm := by decide

/-- The host's question about a table row, for a form without and one with a condition. -/
theorem test_decodeTableWord : decodeTableWord 8 0x2A = some (.buildWSum8 false false) ∧
    decodeTableWord 8 0x70 = some (.xchgAB false 0) ∧ decodeTableWord 8 0x03 = none := by decide

/-! ### Well-formedness: the check refuses each ill-formed term (R113) -/

theorem test_illFormed_xchgFF : (Instr.xchgFF false false 3).wellFormed = false := by decide
theorem test_illFormed_xchgN : (Instr.xchgN true false 3).wellFormed = false := by decide
theorem test_illFormed_xchgAN : (Instr.xchgAN true true 3).wellFormed = false := by decide
theorem test_illFormed_xchgAD : (Instr.xchgAD false 3).wellFormed = false := by decide
theorem test_illFormed_xchgAB : (Instr.xchgAB true 3).wellFormed = false := by decide
theorem test_illFormed_reserved : (Instr.reservedOp6 0).wellFormed = false ∧
    (Instr.reservedOp7 31).wellFormed = false := by decide
theorem test_wellFormed_xchg : (Instr.xchgFF true true 2).wellFormed = true := by decide

/-! ### Small states -/

/-- A memory that lists these bytes from index 0. -/
def cells (bs : List Byte) : Memory := storeBytes [] 0 bs

/-- A configuration with the values that `95_test_vectors.md` gives the open parameters. -/
def cfg : Config where
  tAckMax := 300
  tQuiet := 20
  tSettle := 10
  tCtl := 0
  burstStopOnQuiet := false
  delimTimeoutFails := false

/-- Connection Params as the vectors load them. -/
def params : ConnParams := { ConnParams.reset with valid := true, rdto := 1000, wrto := 1000, retries := 3 }

/-- Host-owned, with a payload. -/
def withPayload (p : List Byte) : State := { State.reset with cfg := cfg, payload := cells p, plen := p.length }

/-- Host-owned, with a frame and an old payload of one byte. -/
def withFrame (f : List Byte) : State := { withPayload [0x77] with frame := cells f, flen := f.length }

/-- Host-owned, with a trace and the two operands of the validator. -/
def withTrace (tr pf sb : List Byte) : State :=
  { State.reset with
    trace := cells tr, tlen := tr.length, vpfx := cells pf, vplen := pf.length
    vsub := cells sb, vslen := sb.length }

/-- Configured and ready for an exchange of one byte. -/
def configured : State := { withPayload [0x41] with cp := params, rdto := 50 }

/-- An exchange in the engine state `st`, owning the transport, expecting three bytes. -/
def running (st : EngState) : State :=
  { State.reset with
    cfg := cfg, st := st, busy := true, tpReq := true, owned := true, attempt := 1, natt := 3
    l := { Latched.reset with plen := 1, expbytes := 3, rdto := 50, cp := params }
    cmd := 0x60, cp := params, payload := cells [0x41], plen := 1, frame := cells [0x41], flen := 1, txi := 1
    txStream := [0x41], now := 20, dl := 60, evt := [⟨0, .attemptStart 1⟩, ⟨0, .openOk⟩] }

/-- One field of the state after. -/
def get {α : Type} (o : Host.Outcome State Fault Refusal) (f : State → α) : Option α :=
  match o with
  | .next t => some (f t)
  | .fault _ => none
  | .refused _ => none

/-! ### One step of each instruction -/

-- 2.1: `CSUM.NONE` always gives 00; the flags.
theorem test_csumNone : get (exec (.csumNone false false false) { withPayload [0x41] with ck := 9 })
    (fun t => (t.ck, t.done, t.cmderr)) = some (0x00, true, false) := by decide
-- 2.1: 41 42 43 gives 40; FF gives 7F with the ignored bits set.
theorem test_csumXor7 : get (exec (.csumXor7 false false false) (withPayload [0x41, 0x42, 0x43])) State.ck
    = some 0x40 := by decide
theorem test_csumXor7_bit7 : get (exec (.csumXor7 true true true) (withPayload [0xFF])) State.ck = some 0x7F := by
  decide
-- 2.1: 41 42 43 gives C6; FF FF gives FE.
theorem test_csumSum8 : get (exec (.csumSum8 false false false) (withPayload [0x41, 0x42, 0x43])) State.ck
    = some 0xC6 := by decide
theorem test_csumSum8_wraps : get (exec (.csumSum8 false false false) (withPayload [0xFF, 0xFF])) State.ck
    = some 0xFE := by decide
-- 2.2, the rows 02 03 and 41 FF.
theorem test_buildUNone : get (exec (.buildUNone false false) (withPayload [0x02, 0x03]))
    (fun t => (frameBytes t, t.flen)) = some ([0x02, 0x03], 2) := by decide
theorem test_buildUXor7 : get (exec (.buildUXor7 false false) (withPayload [0x41, 0xFF])) frameBytes
    = some [0x41, 0xFF, 0x3E] := by decide
theorem test_buildUSum8 : get (exec (.buildUSum8 false false) (withPayload [0x41, 0xFF])) frameBytes
    = some [0x41, 0xFF, 0x40] := by decide
theorem test_buildWNone : get (exec (.buildWNone false false) (withPayload [0x02, 0x03])) frameBytes
    = some [0x02, 0x02, 0x03, 0x03] := by decide
theorem test_buildWXor7 : get (exec (.buildWXor7 false false) (withPayload [0x41, 0x42, 0x43])) frameBytes
    = some [0x02, 0x41, 0x42, 0x43, 0x40, 0x03] := by decide
theorem test_buildWSum8 : get (exec (.buildWSum8 false false) (withPayload [0x41, 0x42, 0x43])) frameBytes
    = some [0x02, 0x41, 0x42, 0x43, 0xC6, 0x03] := by decide
-- 2.3: the mode is not recoverable from the frame.
theorem test_decodeUNone : get (exec (.decodeUNone false false) (withFrame [0x02, 0x41, 0x03]))
    (fun t => (t.derr, payloadBytes t)) = some (.ok, [0x02, 0x41, 0x03]) := by decide
theorem test_decodeUXor7 : get (exec (.decodeUXor7 false false) (withFrame [0x41, 0x42, 0x43, 0x40]))
    (fun t => (t.derr, payloadBytes t)) = some (.ok, [0x41, 0x42, 0x43]) := by decide
-- 2.3: the empty frame is too short, the payload stays.
theorem test_decodeUXor7_short : get (exec (.decodeUXor7 false false) (withFrame []))
    (fun t => (t.derr, payloadBytes t)) = some (.tooShort, [0x77]) := by decide
theorem test_decodeUSum8 : get (exec (.decodeUSum8 false false) (withFrame [0x41, 0x42, 0x43, 0xC6]))
    (fun t => (t.derr, payloadBytes t)) = some (.ok, [0x41, 0x42, 0x43]) := by decide
-- 2.3: the first defect is reported.
theorem test_decodeWNone : get (exec (.decodeWNone false false) (withFrame [0x03, 0x41, 0x02]))
    (fun t => (t.derr, payloadBytes t)) = some (.badStart, [0x77]) := by decide
theorem test_decodeWNone_end : get (exec (.decodeWNone false false) (withFrame [0x02, 0x41, 0x42])) State.derr
    = some .badEnd := by decide
-- 2.3: a checksum byte with bit 7 set never matches.
theorem test_decodeWXor7 : get (exec (.decodeWXor7 false false) (withFrame [0x02, 0x41, 0x42, 0x43, 0xC0, 0x03]))
    (fun t => (t.derr, payloadBytes t)) = some (.badChecksum, [0x77]) := by decide
theorem test_decodeWSum8 : get (exec (.decodeWSum8 false false) (withFrame [0x02, 0x41, 0xFF, 0x40, 0x03]))
    (fun t => (t.derr, payloadBytes t, t.done)) = some (.ok, [0x41, 0xFF], true) := by decide
-- 2.3, the last paragraph: FLEN = 257 with `U.XOR7` is refused.
theorem test_decode_refused : get (exec (.decodeUXor7 false false) { withFrame [] with flen := 257 })
    (fun t => (t.cmderr, t.done)) = some (true, false) := by decide
-- F6, and the initial values of R162.
theorem test_xchgFF : get (exec (.xchgFF true false 2) configured)
    (fun t => (frameBytes t, t.st, t.busy, t.tpReq, t.attempt, t.natt))
    = some ([0x02, 0x41, 0x41, 0x03], .opening, true, true, 1, 3) := by decide
theorem test_xchgN : get (exec (.xchgN false true 0) { configured with expbytes := 1024 })
    (fun t => (t.st, t.l.expbytes, t.l.ack, t.l.val)) = some (.opening, 1024, false, true) := by decide
-- F5: one more than `TMAX`.
theorem test_xchgN_tooLarge : get (exec (.xchgN false false 0) { configured with expbytes := 1025 })
    (fun t => (t.st, t.cmderr, t.busy)) = some (.idle, true, false) := by decide
-- X3: the frame.
theorem test_xchgAN : get (exec (.xchgAN false false 1)
      { configured with expbytes := 3, payload := cells [0x10, 0x20, 0x30, 0x40], plen := 4 })
    (fun t => (frameBytes t, t.evt)) = some ([0x10, 0x20, 0x30, 0x40, 0x40], [⟨0, .attemptStart 1⟩]) := by decide
theorem test_xchgAD : get (exec (.xchgAD false 1) configured)
    (fun t => (frameBytes t, t.l.ack, t.l.wrap)) = some ([0x02, 0x41, 0x41, 0x03], true, true) := by decide
theorem test_xchgAB : get (exec (.xchgAB true 0) configured)
    (fun t => (t.l.ack, t.l.wrap, t.l.val, t.l.rdto)) = some (true, false, true, 50) := by decide
-- F7: without a configuration.
theorem test_xchgAB_missing : get (exec (.xchgAB false 0) (withPayload [0x41]))
    (fun t => (t.cfgmiss, t.cmderr, t.st, t.tpReq, t.flen)) = some (true, false, .idle, false, 0) := by decide
-- S9.
theorem test_pfx : get (exec (.pfx 0) (withTrace [1, 2, 3, 4, 5] [1, 2, 3] [])) State.vres = some true := by decide
theorem test_pfx_not : get (exec (.pfx 0) (withTrace [1, 2, 4] [1, 2, 3] [])) State.vres = some false := by decide
-- S10: the sharper instance is not contiguous.
theorem test_sub : get (exec (.sub 0) (withTrace [1, 3, 4, 5] [] [3, 4])) State.vres = some true := by decide
theorem test_sub_not : get (exec (.sub 31) (withTrace [3, 1, 4] [] [3, 4])) State.vres = some false := by decide
-- F1 and F11.
theorem test_reservedOp6 : get (exec (.reservedOp6 0) { State.reset with cfgmiss := true, done := true })
    (fun t => (t.cmd, t.done, t.cmderr, t.cfgmiss)) = some (0xC0, false, true, false) := by decide
theorem test_reservedOp7 : get (exec (.reservedOp7 31) State.reset)
    (fun t => (t.cmd, t.done, t.cmderr)) = some (0xFF, false, true) := by decide
-- F13: a command while busy.
theorem test_busy : get (exec (.csumSum8 false false false) (running .rdCount))
    (fun t => (t.cmd, t.cmderr, t.ck)) = some (0x60, true, 0) := by decide

/-! ### One step of the machine -/

-- R21: a fetched word runs; the bytes no form names are refused (F3).
theorem test_step_command : get (step ((withPayload [0x41]).withFetchWord 8 0x01)) (fun t => (t.ck, t.cmd, t.script))
    = some (0x41, 0x01, []) := by decide
theorem test_step_reservedCsm : get (step (State.reset.withFetchWord 8 0x43)) (fun t => (t.cmd, t.cmderr, t.done))
    = some (0x43, true, false) := by decide
-- R171: the byte at `TXI`.
theorem test_engine_tx : get ({ running .tx with txi := 0, txReady := true }.turn .engine)
    (fun t => (t.txByte, t.txi, t.txValid, t.txStream)) = some (0x41, 1, true, [0x41, 0x41]) := by decide
-- Y2: the handshake deadline is the smaller of the two.
theorem test_engine_ackDeadline :
    get ({ running .tx with l := { Latched.reset with ack := true, cp := { params with rdto := 120 } } }.turn .engine)
      (fun t => (t.st, t.dl)) = some (.ackwait, 140) := by decide
-- Y9: a fall-through 03 ends a delimiter read at once.
theorem test_engine_fallthrough :
    get ({ running .ackwait with
        rxq := [0x03], l := { Latched.reset with ack := true, wrap := true, rdto := 100, cp := params } }.turn .engine)
      (fun t => (t.st, traceBytes t, t.dl)) = some (.release, [0x03], 120) := by decide
-- S8: the short read.
theorem test_engine_shortRead :
    get ({ running .rdCount with now := 60, trace := cells [1, 2], tlen := 2 }.turn .engine)
      (fun t => (t.st, t.expn, t.gotn, t.lastErr)) = some (.failed, 3, 2, .readTimeout) := by decide
-- S7: the attempt after a failure.
theorem test_engine_retry : get ({ running .failed with lastErr := .handshakeRejected }.turn .engine)
    (fun t => (t.st, t.attempt, t.owned, t.evt.drop 2)) =
      some (.opening, 2, false, [⟨20, .release⟩, ⟨20, .attemptStart 2⟩]) := by decide
-- Y26: the empty trace fails a non-empty prefix.
theorem test_engine_validation :
    get ({ running .release with
        l := { Latched.reset with val := true, vpfxen := true }, vpfx := cells [1], vplen := 1 }.turn .engine)
      (fun t => (t.ok, t.errkind, t.done, t.busy)) = some (false, .validationMismatch, true, false) := by decide
-- F15: a write at the capacity and a length above it.
theorem test_hostWrite_range : get (State.reset.turn (.hostWrite (.cell .payload 255 1))) (fun t => (t.payload, t.cmderr))
      = some ([], true) ∧
    get (State.reset.turn (.hostWrite (.len .payload 256))) (fun t => (t.plen, t.cmderr)) = some (0, true) := by decide
-- Program 1: the masked write.
theorem test_hostWrite_mask : get (State.reset.turn (.hostWrite (.cell .payload 0 0x141))) (fun t => readCell t .payload 0)
    = some 0x41 := by decide
-- 2.9: reset during an exchange.
theorem test_reset : get ((running .ackwait).turn (.reset true)) (fun t => (t.st, t.busy, t.owned, t.tpReq, t.now))
    = some (.idle, false, false, false, 20) := by decide
-- R300: while reset is asserted a command, a write and a pushed byte leave the reset values.
theorem test_reset_held :
    get (step { State.reset with resetHeld := true, script := [.command 0xC0] }) (fun t => (t.cmd, t.cmderr))
      = some (0x00, false) ∧
    get ({ State.reset with resetHeld := true }.turn (.hostWrite (.len .payload 3))) State.plen = some 0 ∧
    get ({ State.reset with resetHeld := true }.turn (.rxPush 7)) (fun t => (t.rxq, t.resetHeld)) = some ([], true) := by
  decide
-- R164, R286: the eight values that the open request presents.
theorem test_presentedParams : presentedParams (running .opening) =
    some ⟨0, 0, 0, 0, 0, 0, 1000, 1000⟩ ∧ presentedParams State.reset = none := by decide
-- 2.8: a string is a mismatched count, 70000 too wide for `CW`, 9 taken.
theorem test_catalog_count : intArg 16 [(.expectBytes, .text "7")] .expectBytes 5 = 5 ∧
    intArg 16 [(.expectBytes, .int 70000)] .expectBytes 5 = 5 ∧ intArg 16 [(.expectBytes, .int (-1))] .expectBytes 5 = 5 ∧
    intArg 16 [(.expectBytes, .int 9)] .expectBytes 5 = 9 := by decide

/-! ### Witnesses: states and operands that meet the hypotheses of each statement -/

theorem witness_DecodeOfEncode : formHolds 0 (.xchgAD true 3) = true ∧ formHolds 0xFFFF (.xchgAN true true 3) = true ∧
    formHolds 0 (.reservedOp7 31) = true := by decide

theorem witness_EncodeOfDecode : decode 0 0xFF = .ok (.reservedOp7 31) ∧ decode 1 0x60 = .ok (.xchgN false false 0) := by
  decide

/-- A byte of each kind: in no row, ill-formed by its operation, ill-formed by its mode, and the last byte of each of the
operations 2 and 5. -/
theorem witness_ReservedEncodings : (∃ r, decode 0 0x03 = .error r) ∧ (∃ r, decode 0 0x5F = .error r) ∧
    (∃ i, decode 0 0xC0 = .ok i ∧ i.wellFormed = false) ∧ (∃ i, decode 0 0x7F = .ok i ∧ i.wellFormed = false) ∧
    (∃ i, decode 0 0xBF = .ok i ∧ i.wellFormed = true) :=
  ⟨⟨_, rfl⟩, ⟨_, rfl⟩, ⟨_, rfl, rfl⟩, ⟨_, rfl, rfl⟩, ⟨_, rfl, rfl⟩⟩

theorem witness_StepRunsDecodedCommand :
    ((withPayload [0x41]).withFetchWord 8 0x01).resetHeld = false ∧
    ((withPayload [0x41]).withFetchWord 8 0x01).script = .command 0x01 :: [] ∧
    decode ((withPayload [0x41]).withFetchWord 8 0x01).expbytes 0x01 = .ok (.csumXor7 false false false) ∧
    formHolds configured.expbytes (.xchgAB true 0) = true := by decide

theorem witness_CodecLaws : (∀ v ∈ ([0, 255, 65] : List Int), 0 ≤ v ∧ v ≤ 255) ∧
    ((0x02 : Byte) = startByte ∨ (0x02 : Byte) = endByte) ∧ ((0x03 : Byte) = startByte ∨ (0x03 : Byte) = endByte) := by decide

theorem witness_MaskIsRemainder : ((0 : Int) ≤ 0 ∧ (0 : Int) ≤ 255) ∧ ((0 : Int) ≤ 255 ∧ (255 : Int) ≤ 255) := by decide

theorem witness_Xor7IsBitParity : (0 : Nat) < 7 ∧ (6 : Nat) < 7 := by decide

/-- A frame of each kind that the clauses tell apart: too short by one, no start, no end, well laid out, and a wrong checksum. -/
theorem witness_DecodeFrameReportsFirstDefect :
    ([0x02, 0x03] : List Byte).length < 2 * true.toNat + (if ChecksumMode.xor7 = .none then 0 else 1) ∧
    (2 * true.toNat + (if ChecksumMode.none = .none then 0 else 1) ≤ ([0x41, 0x03] : List Byte).length ∧
      ([0x41, 0x03] : List Byte)[0]? ≠ some startByte) ∧
    (([0x02, 0x41] : List Byte)[0]? = some startByte ∧ ([0x02, 0x41] : List Byte)[2 - 1]? ≠ some endByte) ∧
    FrameLayout [0x41] true .sum8 [0x02, 0x41, 0x41, 0x03] ∧
    (∀ p, ¬ FrameLayout p false .xor7 [0x80]) := by
  refine ⟨by decide, by decide, by decide, ⟨by decide, by decide, by decide, ?_, by decide⟩, ?_⟩
  · intro c h; cases h; decide
  · intro p h
    have hl : 1 = p.length + 0 + 1 := h.length
    have hp : p = [] := List.eq_nil_of_length_eq_zero (by omega)
    subst hp
    exact absurd (h.checksum 0 rfl) (by decide)

theorem witness_Csum : (withPayload [0xFF]).busy = false ∧ payloadBytes (withPayload [0xFF]) = [0xFF] ∧
    (withPayload []).busy = false ∧ (withPayload []).plen = 0 := by decide

theorem witness_BuildWritesFrame : (withPayload [0x02, 0x03]).busy = false ∧ (2 : Nat) ≤ 2 := by decide

theorem witness_DecodeRecoversPayload : (withFrame [0x02, 0x41, 0x41, 0x03]).busy = false ∧
    FrameLayout [0x41] true .xor7 (frameBytes (withFrame [0x02, 0x41, 0x41, 0x03])) ∧
    ([0x41] : List Byte).length ≤ pmax := by
  refine ⟨by decide, ⟨by decide, by decide, by decide, ?_, by decide⟩, by decide⟩
  intro c h; cases h; decide

/-- The longest payload that a decode takes: 255 bytes, unwrapped and without checksum. -/
theorem witness_DecodeRecoversPayload_longest : ∃ (s : State) (p : List Byte), s.busy = false ∧
    FrameLayout p false .none (frameBytes s) ∧ p.length = pmax := by
  refine ⟨{ withFrame [] with flen := 255 }, frameBytes { withFrame [] with flen := 255 }, rfl, ⟨?_, ?_, ?_, ?_, ?_⟩, ?_⟩
  · simp
  · intro h; cases h
  · simp
  · intro c h; cases h
  · intro h; cases h
  · exact length_bytesOf _ _ _

/-- A frame for each code: one byte too short, no start delimiter, no end delimiter, a checksum with bit 7 set. -/
theorem witness_DecodeReportsDefect :
    ((withFrame []).busy = false ∧ (∀ p, ¬ FrameLayout p false .sum8 (frameBytes (withFrame []))) ∧
      (withFrame []).flen < 2 * false.toNat + 1) ∧
    ((∀ p, ¬ FrameLayout p true .none (frameBytes (withFrame [0x41, 0x03]))) ∧
      readCell (withFrame [0x41, 0x03]) .frame 0 ≠ startByte) ∧
    ((∀ p, ¬ FrameLayout p true .none (frameBytes (withFrame [0x02, 0x41]))) ∧
      readCell (withFrame [0x02, 0x41]) .frame 1 ≠ endByte) ∧
    ((∀ p, ¬ FrameLayout p false .xor7 (frameBytes (withFrame [0x80]))) ∧
      (withFrame [0x80]).flen ≤ 2 * false.toNat + 1 + pmax) := by
  refine ⟨⟨by decide, fun p h => ?_, by decide⟩, ⟨fun p h => ?_, by decide⟩, ⟨fun p h => ?_, by decide⟩,
    ⟨fun p h => ?_, by decide⟩⟩
  · exact absurd h.length (by simp [frameBytes, withFrame])
  · exact absurd (h.startDelimiter rfl) (by decide)
  · exact absurd (h.endDelimiter rfl) (by decide)
  · have hl : 1 = p.length + 0 + 1 := h.length
    have hp : p = [] := List.eq_nil_of_length_eq_zero (by omega)
    subst hp
    exact absurd (h.checksum 0 rfl) (by decide)

theorem witness_Validator : (withTrace [1, 2] [1, 2] [2]).busy = false ∧ prefixHolds (withTrace [1, 2] [1, 2] [2]) ∧
    containmentHolds (withTrace [1, 2] [1, 2] [2]) ∧ ¬ prefixHolds (withTrace [1] [1, 2] []) ∧
    containmentHolds (withTrace [] [] []) := by
  refine ⟨by decide, ⟨by decide, by decide⟩, ⟨1, by decide, by decide⟩, fun h => absurd h.1 (by decide), ⟨0, by decide, ?_⟩⟩
  intro j h; exact absurd h (by simp [withTrace])

/-- Each reason to refuse: busy, a reserved operation, a reserved mode, a count one above `TMAX`, a body one above `PMAX`. -/
theorem witness_RefusedCommands :
    (running .opening).resetHeld = false ∧ configured.resetHeld = false ∧
    ({ running .opening with script := [.command 0x00] } : State).busy = true ∧
    6 ≤ ((0xC0 : Byte) >>> 5).toNat ∧ (((0x63 : Byte) >>> 5).toNat ≤ 3 ∧ (0x63 : Byte) &&& 3 = 3) ∧
    (((0x60 : Byte) >>> 5).toNat = 3 ∧ tmax < ({ configured with expbytes := 1025 } : State).expbytes.toNat) ∧
    (((0x49 : Byte) >>> 5).toNat = 2 ∧
      2 * ((0x49 : Byte).getLsbD 3).toNat + (if (0x49 : Byte) &&& 3 = 0 then 0 else 1) + pmax
        < ({ configured with flen := 259 } : State).flen) ∧
    (((0x41 : Byte) >>> 5).toNat = 2 ∧
      2 * ((0x41 : Byte).getLsbD 3).toNat + (if (0x41 : Byte) &&& 3 = 0 then 0 else 1) + pmax
        < ({ configured with flen := 257 } : State).flen) := by decide

theorem witness_IllFormedIsRefused : (Instr.reservedOp6 0).wellFormed = false ∧
    (Instr.xchgAB true 3).wellFormed = false ∧ State.reset.busy = false := by decide

/-- The five forms of an exchange, the counts at 0, 1 and `TMAX`. -/
theorem witness_XchgStartsExchange :
    configured.busy = false ∧ configured.cp.valid = true ∧ configured.expbytes.toNat ≤ tmax ∧
    (∀ i ∈ [Instr.xchgFF true true 2, .xchgAD false 1, .xchgAB true 0],
      isExchange i = true ∧ i.wellFormed = true ∧ formHolds configured.expbytes i = true) ∧
    (∀ i ∈ [Instr.xchgN true false 0, .xchgAN false true 2],
      isExchange i = true ∧ i.wellFormed = true ∧ formHolds 1 i = true ∧ formHolds 1024 i = true) ∧
    (1024 : BitVec 16).toNat ≤ tmax := by decide

theorem witness_XchgWithoutConfiguration : isExchange (.xchgFF false false 0) = true ∧
    (Instr.xchgFF false false 0).wellFormed = true ∧ (withPayload [0x41]).busy = false ∧
    (withPayload [0x41]).expbytes.toNat ≤ tmax ∧ (withPayload [0x41]).cp.valid = false := by decide

theorem witness_OpenAnswerIsTaken : (running .opening).resetHeld = false ∧ (running .opening).st = .opening ∧ (running .opening).tpAns = none ∧
    ({ running .opening with tpAns := some .grant } : State).tpAns = some .grant ∧
    ({ running .opening with tpAns := some .fail } : State).tpAns = some .fail := by decide

/-- `now` exactly at the deadline. -/
theorem witness_PurgePulseSettle : (running .purge).resetHeld = false ∧ (running .purge).tpFault = false ∧ (running .purge).st = .purge ∧
    (({ running .ctl with dl := 20 } : State).st = .ctl ∧ (20 : Time) ≤ (running .ctl).now) ∧
    (({ running .settle with dl := 20 } : State).st = .settle ∧ (20 : Time) ≤ (running .settle).now) := by decide

theorem witness_TransmitByteOrTimeOut : (running .tx).resetHeld = false ∧ (running .tx).st = .tx ∧ (running .tx).tpFault = false ∧
    ({ running .tx with txi := 0, txReady := true } : State).txi < (running .tx).flen ∧
    (({ running .tx with txi := 0, dl := 20 } : State).txReady = false ∧ (20 : Time) ≤ (running .tx).now) := by decide

theorem witness_DispatchAfterTransmission : (running .tx).resetHeld = false ∧ (running .tx).st = .tx ∧ (running .tx).tpFault = false ∧
    (running .tx).txi = (running .tx).flen ∧ (running .tx).l.ack = false ∧ (running .tx).l.expbytes ≠ 0 ∧
    ({ running .tx with l := { Latched.reset with ack := true } } : State).l.ack = true ∧
    ({ running .tx with l := Latched.reset } : State).l.expbytes = 0 := by decide

theorem witness_EnterReadSelectsState : (running .ackwait).l.expbytes ≠ 0 ∧
    ({ running .ackwait with l := { Latched.reset with wrap := true } } : State).l.wrap = true ∧
    ({ running .ackwait with l := { Latched.reset with wrap := true } } : State).l.expbytes = 0 ∧
    ({ running .ackwait with l := Latched.reset } : State).l.wrap = false := by decide

theorem witness_FaultAndOverrunComeFirst : (running .purge).resetHeld = false ∧ (running .purge).st.faultVisible = true ∧
    (running .rdQuiet).st.faultVisible = true ∧ ({ running .purge with tpFault := true } : State).tpFault = true ∧
    (running .ackwait).st.reading = true ∧ (running .rdQuiet).st.reading = true ∧
    ({ running .ackwait with rxovr := true } : State).rxovr = true ∧ (running .ackwait).tpFault = false := by decide

/-- NAK, ACK, a byte beside each, and silence at exactly the deadline. -/
theorem witness_HandshakeByte : (running .ackwait).resetHeld = false ∧ (running .ackwait).st = .ackwait ∧ (running .ackwait).tpFault = false ∧
    (running .ackwait).rxovr = false ∧ ({ running .ackwait with rxq := [0x15] } : State).rxq = nakByte :: [] ∧
    ({ running .ackwait with rxq := [0x06, 0x15] } : State).rxq = ackByte :: [0x15] ∧
    (({ running .ackwait with rxq := [0x14] } : State).rxq = 0x14 :: [] ∧ (0x14 : Byte) ≠ nakByte ∧
      (0x14 : Byte) ≠ ackByte ∧ (running .ackwait).tlen < tmax) ∧
    ((running .ackwait).rxq = [] ∧ ({ running .ackwait with dl := 20 } : State).dl ≤ (running .ackwait).now) := by decide

/-- The last byte of the count, one before it, the last free cell of the trace, and the deadline itself. -/
theorem witness_CountedRead : (running .rdCount).resetHeld = false ∧ (running .rdCount).st = .rdCount ∧ (running .rdCount).tpFault = false ∧
    (running .rdCount).rxovr = false ∧ ({ running .rdCount with rxq := [7], tlen := 2 } : State).rxq = 7 :: [] ∧
    ({ running .rdCount with rxq := [7], tlen := 2 } : State).tlen + 1 = (running .rdCount).l.expbytes.toNat ∧
    ({ running .rdCount with rxq := [7], tlen := 1023 } : State).tlen < tmax ∧
    ((running .rdCount).rxq = [] ∧ ({ running .rdCount with dl := 20 } : State).dl ≤ (running .rdCount).now) := by decide

theorem witness_DelimiterRead : (running .rdDelim).resetHeld = false ∧ (running .rdDelim).st = .rdDelim ∧ (running .rdDelim).tpFault = false ∧
    (running .rdDelim).rxovr = false ∧ ({ running .rdDelim with rxq := [0x03, 1] } : State).rxq = 0x03 :: [1] ∧
    ({ running .rdDelim with rxq := [0x02] } : State).rxq = 0x02 :: [] ∧ (running .rdDelim).tlen < tmax ∧
    ((running .rdDelim).rxq = [] ∧ ({ running .rdDelim with dl := 20 } : State).dl ≤ (running .rdDelim).now ∧
      (running .rdDelim).cfg.delimTimeoutFails = false) ∧
    ({ running .rdDelim with cfg := { cfg with delimTimeoutFails := true } } : State).cfg.delimTimeoutFails = true := by
  decide

theorem witness_BurstRead : (running .rdBurst).resetHeld = false ∧ (running .rdBurst).tpFault = false ∧ (running .rdBurst).rxovr = false ∧
    ((running .rdBurst).st = .rdBurst ∧ ({ running .rdBurst with rxq := [9] } : State).rxq = 9 :: [] ∧
      (running .rdBurst).tlen < tmax) ∧
    ((running .rdBurst).rxq = [] ∧ ({ running .rdBurst with dl := 20 } : State).dl ≤ (running .rdBurst).now) ∧
    (running .rdBurst).now < ({ running .rdBurst with dl := 21 } : State).dl ∧
    ((running .rdQuiet).st = .rdQuiet ∧ ({ running .rdQuiet with qdl := 20 } : State).qdl ≤ (running .rdQuiet).now ∧
      ¬ ((running .rdQuiet).cfg.burstStopOnQuiet = true ∧ 0 < (running .rdQuiet).tlen ∧ (running .rdQuiet).rxq = [])) ∧
    (({ running .rdQuiet with cfg := { cfg with burstStopOnQuiet := true }, tlen := 1 } : State).cfg.burstStopOnQuiet = true ∧
      0 < ({ running .rdQuiet with tlen := 1 } : State).tlen ∧ (running .rdQuiet).rxq = []) := by decide

theorem witness_TraceOverflowRaises : (running .rdBurst).resetHeld = false ∧ ({ running .rdBurst with tlen := 1024, rxq := [1] } : State).tlen = tmax ∧
    ({ running .rdBurst with tlen := 1024, rxq := [1] } : State).rxq = 1 :: [] ∧ (running .rdBurst).st = .rdBurst ∧
    (running .rdBurst).tpFault = false ∧ (running .rdBurst).rxovr = false ∧
    ((running .ackwait).st = .ackwait ∧ (0x05 : Byte) ≠ nakByte ∧ (0x05 : Byte) ≠ ackByte) := by decide

/-- No validation asked for, one that passes, and one that fails. -/
theorem witness_ReleaseWritesOutcome : (running .release).resetHeld = false ∧ (running .release).st = .release ∧ (running .release).l.val = false ∧
    validationPasses (running .release) ∧
    (({ running .release with l := { Latched.reset with val := true, vpfxen := true }, vplen := 1 } : State).l.val = true ∧
      ¬ validationPasses { running .release with l := { Latched.reset with val := true, vpfxen := true }, vplen := 1 }) := by
  refine ⟨by decide, by decide, by decide, ⟨fun h => ?_, fun h => ?_⟩, by decide, fun h => ?_⟩
  · exact absurd h (by decide)
  · exact absurd h (by decide)
  · exact absurd (h.1 rfl).1 (by decide)

/-- Budget left by one, and used up. -/
theorem witness_FailedRetriesOrFinishes : (running .failed).resetHeld = false ∧ (running .failed).st = .failed ∧
    ({ running .failed with attempt := 2 } : State).attempt.toNat < (running .failed).natt.toNat ∧
    (running .failed).natt.toNat ≤ ({ running .failed with attempt := 3 } : State).attempt.toNat := by decide

theorem witness_EngineWaits : State.reset.tpFault = false ∧ State.reset.st = .idle ∧ (running .closed).st = .closed ∧
    ((running .opening).st = .opening ∧ (running .opening).tpAns = none) ∧
    ((running .ctl).st = .ctl ∧ (running .ctl).now < ({ running .ctl with dl := 21 } : State).dl) ∧
    ((running .tx).st = .tx ∧ ({ running .tx with txi := 0 } : State).txi < (running .tx).flen ∧
      (running .tx).txReady = false ∧ (running .tx).now < (running .tx).dl) ∧
    ((running .rdCount).st = .rdCount ∧ (running .rdCount).rxovr = false ∧ (running .rdCount).rxq = [] ∧
      (running .rdCount).now < (running .rdCount).dl) ∧
    ((running .rdQuiet).st = .rdQuiet ∧ (running .rdQuiet).now < ({ running .rdQuiet with qdl := 21 } : State).qdl) := by
  decide

theorem witness_PushAppendsOrDrops : State.reset.resetHeld = false ∧ ({ State.reset with rxq := [1] } : State).rxq.length < rxqDepth ∧
    rxqDepth ≤ ({ State.reset with rxq := List.replicate 1024 0 } : State).rxq.length := by
  refine ⟨by decide, by decide, ?_⟩
  rw [List.length_replicate]
  decide

theorem witness_TransportInputs : (running .opening).resetHeld = false ∧ State.reset.st ≠ .opening ∧
    (({ running .opening with owned := false } : State).st = .opening ∧ (running .opening).tpReq = true ∧
      ({ running .opening with owned := false } : State).owned = false ∧ (running .opening).tpAns = none) ∧
    State.reset.owned = false ∧ (running .release).st = .release ∧ (running .purge).owned = true ∧
    (running .purge).st.faultVisible = true := by decide

/-- The last cell and the first that does not exist; the largest length and one more. -/
theorem witness_HostWritesAreBounded : (running .purge).resetHeld = false ∧ (running .purge).busy = true ∧ State.reset.busy = false ∧
    254 < Buf.payload.capacity ∧ Buf.payload.capacity ≤ 255 ∧ 258 ≤ Buf.frame.capacity ∧ Buf.frame.capacity < 259 := by
  decide

theorem witness_HostReadsAreValid : State.reset.busy = false ∧ Buf.payload ≠ .frame ∧ Buf.payload ≠ .trace ∧
    0 < (withPayload [0x41]).len .payload := by decide

/-- The state after reset, the input still asserted. -/
theorem witness_HeldResetKeepsValues : ∃ s t : State, s.resetHeld = true ∧ resetValuesHold s ∧ step s = .next t := by
  refine ⟨{ State.reset with resetHeld := true, script := [.act (.rxPush 7)] }, _, rfl, ?_, rfl⟩
  simp only [resetValuesHold, State.reset, ConnParams.reset, true_and, and_true]
  intro b; cases b <;> rfl

theorem witness_ResetValues : (running .ackwait).resetHeld = false := by decide

/-- A running exchange in the middle of its counted response meets every invariant. -/
def midway : State :=
  { running .rdCount with
    trace := cells [0xAA], tlen := 1, rxq := [0xBB], rxStream := [0x99, 0xAA, 0xBB] }

theorem witness_BufferInv : BufferInv midway := by
  constructor
  · intro b; cases b <;> decide
  · intro b; cases b <;> decide
  · intro b; cases b <;> decide
  · decide

theorem witness_OwnershipInv : OwnershipInv midway := by
  constructor <;> simp [midway, running, State.reset, EngState.engineOwned, EngState.faultVisible]

theorem witness_EngineInv : EngineInv midway := by
  constructor <;> simp [midway, running, State.reset, Latched.reset, params, EngState.beforeResponse, tmax]

theorem witness_OutcomeInv : OutcomeInv midway := by
  constructor <;> simp [midway, running, State.reset]

theorem witness_Balances : openBalance midway ∧
    attemptsSinceDone midway.evt = (if midway.busy then midway.attempt.toNat else 0) := by
  constructor
  · unfold openBalance; decide
  · decide

theorem witness_StreamsKeepOrder : receivedInOrder midway ∧ sentInOrder midway ∧
    sentInOrder (running .tx) ∧ (running .tx).st = .tx := by
  refine ⟨⟨by decide, fun _ => by decide⟩, fun h => ?_, fun _ => ⟨[], by decide⟩, by decide⟩
  exact absurd h (by decide)

/-- The invariants' other hypothesis: that state has a step. -/
theorem witness_step : ∃ t, step midway = .next t := ⟨_, rfl⟩

theorem witness_EngineLeavesOperands : ∃ t, engineStep midway = some t := ⟨_, rfl⟩

/-- The phase begins with an accepted exchange and ends with the step that writes the outcome. -/
theorem witness_OwnershipPhases :
    (configured.busy = false ∧ get (step (configured.withFetchWord 8 0x60)) State.busy = some true) ∧
    ((running .release).busy = true ∧ get (step (running .release)) State.busy = some false) := by decide

/-- A step of the clock, a step of another agent, and a script without reset. -/
theorem witness_ClockAndLog : get (step State.reset) State.now = some 1 ∧ get (step midway) State.now = some 20 ∧
    midway.script ≠ .act (.reset true) :: [] := by decide

/-- Ready for a fire-and-forget with validation, the checks enabled with empty operands. -/
def ready : State :=
  { configured with
    vpfxen := true, vsuben := true
    script := [.command (encode (.xchgFF true true (csmOfMode .sum8))), .act (.txReady true), .act (.tpAnswer .grant)] }

theorem witness_FireAndForgetRunsToClosed : ready.resetHeld = false ∧ 
    OwnershipInv ready ∧ ready.busy = false ∧ ready.expbytes = 0 ∧
    ready.cp.valid = true ∧ ready.vplen = 0 ∧ ready.vslen = 0 ∧
    ready.now.toNat + ready.cfg.tCtl.toNat + ready.cfg.tSettle.toNat < 2 ^ 32 ∧
    ready.script =
      [.command (encode (.xchgFF true true (csmOfMode .sum8))), .act (.txReady true), .act (.tpAnswer .grant)] := by
  refine ⟨by decide, ?_, by decide, by decide, by decide, by decide, by decide, by decide, rfl⟩
  constructor <;> simp [ready, configured, withPayload, State.reset, EngState.engineOwned, EngState.faultVisible]

theorem witness_SilentHandshakeTimesOut : (running .ackwait).resetHeld = false ∧ (running .ackwait).st = .ackwait ∧ (running .ackwait).script = [] ∧
    (running .ackwait).rxq = [] ∧ (running .ackwait).rxovr = false ∧ (running .ackwait).tpFault = false ∧
    (running .ackwait).now ≤ (running .ackwait).dl ∧ (running .ackwait).now ≤ ({ running .ackwait with dl := 20 } : State).dl := by
  decide

theorem witness_PresetForms : argValue [(.expectAck, .bool true)] .expectAck = some (.bool true) ∧
    argValue [(.expectAck, .bool true)] .expectBytes = none ∧ argValue [] .datetime = none := by decide

/-- A mismatched value for each key: of another type, and an integer one below and one above what the register holds. -/
theorem witness_PresetForms_mismatch : ¬ ArgKey.expectAck.accepts (.int 1) ∧ ¬ ArgKey.expectBytes.accepts (.bool true) ∧
    ¬ ArgKey.expectBytes.accepts (.int 65536) ∧ ¬ ArgKey.expectBytes.accepts (.int (-1)) ∧
    ¬ ArgKey.readTimeoutMs.accepts (.int 4294967296) ∧ ¬ ArgKey.datetime.accepts (.text "now") := by
  simp [ArgKey.accepts]

theorem witness_FrameSpecIsLoaded : ∃ (s : State) (fs : FrameSpec), s.busy = false ∧ fs.payload.length = pmax ∧
    s.script = frameSpecWrites fs ++ [] :=
  ⟨{ State.reset with script := frameSpecWrites ⟨List.replicate 255 1, true, .xor7, true, 0, 50⟩ ++ [] },
    ⟨List.replicate 255 1, true, .xor7, true, 0, 50⟩, rfl, List.length_replicate, rfl⟩

end Sys2Proof.Tests
end

section
/-! SUPPORT. What keeps the five buffers and the receive queue in bounds (`BufferInv`, R7, R43, R70, R77): the updates that leave the
contents alone and let no length grow, the two writes of `State.setBuf` and `State.setLen`, and from these each operation, each
row of the engine and each move. -/

namespace Sys2Proof.Machine

/-! ### Updates that write no cell -/

/-- No buffer's content and no length differs, but for the trace length and the queue, which may only have become shorter. -/
structure BuffersKept (s t : State) : Prop where
  payload : t.payload = s.payload
  frame : t.frame = s.frame
  trace : t.trace = s.trace
  vpfx : t.vpfx = s.vpfx
  vsub : t.vsub = s.vsub
  plen : t.plen = s.plen
  flen : t.flen = s.flen
  tlen : t.tlen ≤ s.tlen
  vplen : t.vplen = s.vplen
  vslen : t.vslen = s.vslen
  rxq : t.rxq.length ≤ s.rxq.length

theorem BuffersKept.refl (s : State) : BuffersKept s s := by constructor <;> simp

theorem BuffersKept.buf {s t : State} (k : BuffersKept s t) (b : Buf) : t.buf b = s.buf b := by
  cases b
  case payload => exact k.payload
  case frame => exact k.frame
  case trace => exact k.trace
  case vpfx => exact k.vpfx
  case vsub => exact k.vsub

theorem BuffersKept.len {s t : State} (k : BuffersKept s t) (b : Buf) : t.len b ≤ s.len b := by
  cases b
  case payload => exact k.plen.le
  case frame => exact k.flen.le
  case trace => exact k.tlen
  case vpfx => exact k.vplen.le
  case vsub => exact k.vslen.le

theorem BufferInv.of_kept {s t : State} (h : BufferInv s) (k : BuffersKept s t) : BufferInv t where
  canonical b := k.buf b ▸ h.canonical b
  existing b := k.buf b ▸ h.existing b
  length b := (k.len b).trans (h.length b)
  queue := k.rxq.trans h.queue

/-! ### Writes of cells and lengths -/

theorem BufferInv.setBuf {s : State} (h : BufferInv s) (b : Buf) (m : Memory) (hwf : m.wf = true)
    (hex : ∀ c ∈ m, c.1 < b.capacity) : BufferInv (s.setBuf b m) where
  canonical b' := by
    rw [buf_setBuf]
    split
    · exact hwf
    · exact h.canonical b'
  existing b' := by
    rw [buf_setBuf]
    split
    · rename_i e; exact e ▸ hex
    · exact h.existing b'
  length b' := by rw [len_setBuf]; exact h.length b'
  queue := h.queue

theorem BufferInv.setLen {s : State} (h : BufferInv s) (b : Buf) (n : Nat) (hn : n ≤ b.capacity) :
    BufferInv (s.setLen b n) where
  canonical b' := by rw [buf_setLen]; exact h.canonical b'
  existing b' := by rw [buf_setLen]; exact h.existing b'
  length b' := by
    rw [len_setLen]
    split
    · rename_i e; exact e ▸ hn
    · exact h.length b'
  queue := h.queue

theorem BufferInv.writeCell {s : State} (h : BufferInv s) (b : Buf) (i : Nat) (v : Byte) (hi : i < b.capacity) :
    BufferInv (writeCell b i v s) := by
  refine h.setBuf b _ (store_wf _ _ _ (h.canonical b)) (fun c hc => ?_)
  rcases mem_store _ _ _ c hc with rfl | hc
  · exact hi
  · exact h.existing b c hc

/-- Loading a buffer from index 0 keeps the bounds if the bytes fit it. -/
theorem BufferInv.load {s : State} (h : BufferInv s) (b : Buf) (f : List Byte) (hf : f.length ≤ b.capacity) :
    BufferInv ((s.setBuf b (storeBytes (s.buf b) 0 f)).setLen b f.length) := by
  refine (h.setBuf b _ (storeBytes_wf _ _ _ (h.canonical b)) (fun c hc => ?_)).setLen b _ hf
  rcases mem_storeBytes _ _ _ c hc with ⟨-, hc⟩ | hc
  · omega
  · exact h.existing b c hc

theorem loadFrame_eq (f : List Byte) (s : State) :
    loadFrame f s = (s.setBuf .frame (storeBytes (s.buf .frame) 0 f)).setLen .frame f.length := rfl

theorem loadDecoded_ok_eq (p : List Byte) (s : State) : loadDecoded (.ok p) s =
    { (s.setBuf .payload (storeBytes (s.buf .payload) 0 p)).setLen .payload p.length with derr := .ok } := rfl

theorem append_store_eq (b : Byte) (s : State) : { s with trace := store s.trace s.tlen b, tlen := s.tlen + 1 } =
    (writeCell .trace s.tlen b s).setLen .trace (s.tlen + 1) := rfl

/-! ### The operations of the commands (R115, R138, R143, R162) -/

/-- The frame around the payload fits the FRAME buffer (R115). -/
theorem BufferInv.loadFrame {s : State} (h : BufferInv s) (wrap : Bool) (m : ChecksumMode) :
    BufferInv (loadFrame (frameOf (payloadBytes s) wrap m) s) := by
  rw [loadFrame_eq]
  refine h.load .frame _ (length_frameOf_le _ _ _ ?_)
  rw [payloadBytes, length_bytesOf]
  exact h.length .payload

theorem startExchange_keeps_bufferInv {s : State} (h : BufferInv s) (c : Byte) (m : ChecksumMode) :
    BufferInv (startExchange c m s) :=
  (h.loadFrame (cmdWrap c) m).of_kept (by constructor <;> simp)

/-- A decoded body has the bytes of the body without the checksum byte (R139). -/
theorem length_of_decodeBody {body p : List Byte} {m : ChecksumMode} (h : decodeBody body m = .ok p) :
    p.length = body.length - if m = .none then 0 else 1 := by
  cases m
  case none => cases h; simp
  all_goals
    simp only [decodeBody] at h
    split at h
    · cases h; simp
    · cases h

/-- A decoded payload is the frame without its framing bytes (R139). -/
theorem length_of_decodeFrame {f p : List Byte} {wrap : Bool} {m : ChecksumMode} (h : decodeFrame f wrap m = .ok p) :
    framingNeed wrap m ≤ f.length ∧ p.length = f.length - framingNeed wrap m := by
  unfold decodeFrame at h
  split at h
  · cases h
  rename_i hneed
  split at h
  · cases h
  split at h
  · cases h
  refine ⟨by omega, ?_⟩
  rw [length_of_decodeBody h]
  cases wrap
  · simp [framingNeed]
  · simp only [framingNeed, if_true, List.length_dropLast, List.length_tail]
    omega

theorem runDecode_keeps_bufferInv {s : State} (h : BufferInv s) (wrap : Bool) (m : ChecksumMode)
    (hfit : framingNeed wrap m ≤ s.flen → s.flen - framingNeed wrap m ≤ pmax) : BufferInv (runDecode wrap m s) := by
  unfold runDecode
  cases hd : decodeFrame (frameBytes s) wrap m with
  | error e => exact h.of_kept (by constructor <;> simp [loadDecoded])
  | ok p =>
    obtain ⟨hneed, hlen⟩ := length_of_decodeFrame hd
    rw [frameBytes, length_bytesOf] at hneed hlen
    have hp : p.length ≤ Buf.payload.capacity := hlen ▸ hfit hneed
    rw [loadDecoded_ok_eq]
    exact (h.load .payload p hp).of_kept (by constructor <;> simp)

/-! ### The issue of a command (R110) -/

/-- By their effect on the buffers the operations are of four kinds: those that write none, a build, a decode, an exchange. -/
theorem operationOf_buffer_cases (i : Instr) :
    (∀ s, BuffersKept s (operationOf i s)) ∨
    (∃ wrap m, operationOf i = runBuild wrap m) ∨
    (∃ wrap m, operationOf i = runDecode wrap m ∧ cmdOp (encode i) = 2 ∧
      framingBytes (encode i) = framingNeed wrap m) ∨
    operationOf i = exchangeOf (encode i) := by
  cases i with
  | csumNone | csumXor7 | csumSum8 =>
    exact .inl fun s => by constructor <;> simp [operationOf, computeChecksum]
  | pfx | sub => exact .inl fun s => by constructor <;> simp [operationOf, runPfx, runSub]
  | reservedOp6 | reservedOp7 => exact .inl BuffersKept.refl
  | buildUNone | buildUXor7 | buildUSum8 | buildWNone | buildWXor7 | buildWSum8 => exact .inr (.inl ⟨_, _, rfl⟩)
  | decodeUNone | decodeUXor7 | decodeUSum8 | decodeWNone | decodeWXor7 | decodeWSum8 =>
    exact .inr (.inr (.inl ⟨_, _, rfl, by simp [encode], by simp [encode, framingBytes, framingNeed]⟩))
  | xchgFF | xchgN | xchgAN | xchgAD | xchgAB => exact .inr (.inr (.inr rfl))

/-- An operation keeps the bounds if, being a decode, it has a payload that fits (R110 step 6). -/
theorem operationOf_keeps_bufferInv {s : State} (h : BufferInv s) (i : Instr)
    (hfit : cmdOp (encode i) = 2 → framingBytes (encode i) ≤ s.flen → s.flen - framingBytes (encode i) ≤ pmax) :
    BufferInv (operationOf i s) := by
  rcases operationOf_buffer_cases i with k | ⟨wrap, m, e⟩ | ⟨wrap, m, e, hop, hneed⟩ | e
  · exact h.of_kept (k s)
  · rw [e]
    exact (h.loadFrame wrap m).of_kept (by constructor <;> simp [runBuild])
  · rw [e]
    exact runDecode_keeps_bufferInv h wrap m (hneed ▸ hfit hop)
  · rw [e]
    rcases exchangeOf_cases (encode i) s with ⟨m, -, e⟩ | ⟨-, e⟩ <;> rw [e]
    · exact startExchange_keeps_bufferInv h _ m
    · exact h

/-- The issue of a command keeps the bounds if the operation does when the command is accepted. -/
theorem issueCommand_keeps_bufferInv {s : State} (h : BufferInv s) (c : Byte) (run : State → State)
    (hrun : refusalOf c s = none → BufferInv (accept (takeCommand c s)) → BufferInv (run (accept (takeCommand c s)))) :
    BufferInv (issueCommand c run s) := by
  rcases issueCommand_cases c run s with ⟨-, e⟩ | ⟨-, -, e⟩ | ⟨-, -, -, e⟩ | ⟨hr, -, e⟩ <;> rw [e]
  · exact h.of_kept (by constructor <;> simp)
  · exact h.of_kept (by constructor <;> simp)
  · exact h.of_kept (by constructor <;> simp)
  · exact hrun hr (h.of_kept (by constructor <;> simp))

/-- A command that decodes keeps the bounds: R110 step 6 has refused a decode whose payload would not fit. -/
theorem issueInstr_keeps_bufferInv {s : State} (h : BufferInv s) (i : Instr) :
    BufferInv (issueCommand (encode i) (operationOf i) s) :=
  issueCommand_keeps_bufferInv h _ _ fun hr ha => by
    obtain ⟨-, -, -, -, -, hfit⟩ := (refusalOf_eq_none _ _).1 hr
    exact operationOf_keeps_bufferInv ha i (by simpa using hfit)

/-! ### The rows of the engine (R203) -/

/-- The append of a byte overflows or stores it in the next cell of the trace, which then exists (R161). -/
theorem append_keeps_bufferInv {s : State} (h : BufferInv s) (b : Byte) (rest : State → State)
    (hrest : ∀ u, BuffersKept u (rest u)) : BufferInv (append b rest s) := by
  rcases append_cases b rest s with ⟨-, e⟩ | ⟨hfull, e⟩ <;> rw [e]
  · exact h.of_kept (by constructor <;> simp)
  · have hroom : s.tlen < tmax := lt_of_le_of_ne (h.length .trace) hfull
    rw [append_store_eq]
    exact ((h.writeCell .trace s.tlen b hroom).setLen .trace (s.tlen + 1) hroom).of_kept (hrest _)

theorem enterRead_keeps_buffers (s : State) : BuffersKept s (enterRead s) := by constructor <;> simp

theorem afterTransmission_keeps_buffers (s : State) : BuffersKept s (afterTransmission s) := by
  rcases afterTransmission_cases s with ⟨-, e⟩ | ⟨-, -, e⟩ | ⟨-, -, e⟩ <;> rw [e] <;> constructor <;> simp

theorem delimDeadline_keeps_buffers (s : State) : BuffersKept s (delimDeadline s) := by
  rcases delimDeadline_cases s with ⟨-, e⟩ | ⟨-, e⟩ <;> rw [e] <;> constructor <;> simp

theorem afterFailure_keeps_buffers (s : State) : BuffersKept s (afterFailure s) := by
  rcases afterFailure_cases s with ⟨-, e⟩ | ⟨-, e⟩ <;> rw [e] <;> constructor <;> simp

theorem finishSuccess_keeps_buffers (s : State) : BuffersKept s (finishSuccess s) := by
  rcases finishSuccess_cases s with ⟨-, e⟩ | ⟨-, e⟩ <;> rw [e] <;> constructor <;> simp

theorem takeHandshake_keeps_bufferInv {s : State} (h : BufferInv s) (b : Byte) : BufferInv (takeHandshake b s) := by
  rcases takeHandshake_cases b s with ⟨-, e⟩ | ⟨-, -, e⟩ | ⟨-, -, e⟩ <;> rw [e]
  · exact h.of_kept (by constructor <;> simp)
  · exact h.of_kept (by constructor <;> simp)
  · exact append_keeps_bufferInv h b _ fun u => by constructor <;> simp

theorem takeResponse_keeps_bufferInv {s : State} (h : BufferInv s) (stop : State → Bool) (b : Byte) :
    BufferInv (takeResponse stop b s) :=
  append_keeps_bufferInv h b _ fun u => by
    cases stop u
    all_goals constructor <;> simp

/-- A byte popped from the queue leaves the bounds (R11). -/
theorem BufferInv.pop {s : State} (h : BufferInv s) {b : Byte} {rest : List Byte} (hq : s.rxq = b :: rest) :
    BufferInv { s with rxq := rest } :=
  h.of_kept (by constructor <;> simp [hq])

theorem engineRow_keeps_bufferInv {s t : State} (h : BufferInv s) (row : EngineRow s t) : BufferInv t := by
  cases row with
  | txDone =>
    exact (h.of_kept (t := emit (.txDone s.flen) s) (by constructor <;> simp)).of_kept (afterTransmission_keeps_buffers _)
  | handshake b rest _ _ _ hq => exact takeHandshake_keeps_bufferInv (h.pop hq) b
  | countByte b rest _ _ _ hq | delimByte b rest _ _ _ hq | burstByte b rest _ _ _ hq =>
    exact takeResponse_keeps_bufferInv (h.pop hq) _ b
  | delimTimeout => exact h.of_kept (delimDeadline_keeps_buffers s)
  | failed => exact h.of_kept (afterFailure_keeps_buffers s)
  | release => exact h.of_kept (finishSuccess_keeps_buffers s)
  | openGranted | openFailed | fault | overrun | purge | ctl | settle | txByte | txTimeout | ackTimeout
  | countTimeout | burstEnd | burstQuiet | quietStop | quietLoop =>
    exact h.of_kept (by constructor <;> simp)

theorem engineStep_keeps_bufferInv {s t : State} (h : BufferInv s) (he : engineStep s = some t) : BufferInv t :=
  engineRow_keeps_bufferInv (h.of_kept (by constructor <;> simp)) (engineStep_row he)

/-! ### The moves of the agents (R43, R62, R77, R300) -/

theorem assertReset_bufferInv (s : State) : BufferInv (assertReset s) where
  canonical b := by cases b <;> rfl
  existing b c hc := by cases b <;> cases hc
  length b := by cases b <;> exact Nat.zero_le _
  queue := Nat.zero_le _

/-- The block takes a write of a cell or a length only within the buffer's capacity (R77). -/
theorem performWrite_keeps_bufferInv {s : State} (h : BufferInv s) (w : HostWrite) : BufferInv (performWrite w s) := by
  cases w with
  | cell b i v =>
    by_cases hi : i < b.capacity
    · simpa only [performWrite, if_pos hi] using h.writeCell b i _ hi
    · simpa only [performWrite, if_neg hi] using h.of_kept (by constructor <;> simp)
  | len b n =>
    by_cases hn : n ≤ b.capacity
    · simpa only [performWrite, if_pos hn] using h.setLen b n hn
    · simpa only [performWrite, if_neg hn] using h.of_kept (by constructor <;> simp)
  | expbytes | rdto | cpValid | cpTpid | cpBaud | cpDbits | cpParity | cpSbits | cpFlow | cpRdto | cpWrto
  | cpRetries | vpfxen | vsuben =>
    exact h.of_kept (by constructor <;> simp [performWrite])

theorem hostWrite_keeps_bufferInv {s : State} (h : BufferInv s) (w : HostWrite) : BufferInv (hostWrite w s) := by
  unfold hostWrite
  split
  · exact h
  · exact performWrite_keeps_bufferInv h w

/-- A full queue takes no byte (R43). -/
theorem rxPush_keeps_bufferInv {s : State} (h : BufferInv s) (b : Byte) : BufferInv (rxPush b s) := by
  rcases rxPush_cases b s with ⟨hroom, e⟩ | ⟨-, e⟩ <;> rw [e]
  · exact { h with queue := by simpa using hroom }
  · exact h.of_kept (by constructor <;> simp)

theorem applyAct_keeps_bufferInv {s : State} (h : BufferInv s) (a : Act) : BufferInv (applyAct a s) := by
  cases a with
  | engine =>
    show BufferInv (engineMove s)
    rcases engineMove_cases s with ⟨t, he, e⟩ | ⟨-, e⟩ <;> rw [e]
    · exact engineStep_keeps_bufferInv h he
    · exact h
  | tick => exact h.of_kept (by constructor <;> simp [applyAct])
  | rxPush b => exact rxPush_keeps_bufferInv h b
  | tpAnswer a =>
    show BufferInv (tpAnswer a s)
    rcases tpAnswer_cases a s with ⟨-, e⟩ | e <;> rw [e]
    · exact h.of_kept (by constructor <;> simp)
    · exact h
  | tpFault =>
    show BufferInv (tpFaultMove s)
    rcases tpFaultMove_cases s with ⟨-, e⟩ | e <;> rw [e]
    · exact h.of_kept (by constructor <;> simp)
    · exact h
  | txReady level => exact h.of_kept (by constructor <;> simp [applyAct, setTxReady])
  | hostWrite w => exact hostWrite_keeps_bufferInv h w
  | hostRead r =>
    show BufferInv (hostRead r s)
    rcases hostRead_cases r s with ⟨v, -, e⟩ | ⟨-, e⟩ <;> rw [e] <;> exact h.of_kept (by constructor <;> simp)
  | reset level =>
    show BufferInv (setReset level s)
    rcases setReset_cases level s with ⟨-, -, e⟩ | e <;> rw [e]
    · exact assertReset_bufferInv s
    · exact h.of_kept (by constructor <;> simp)

theorem actWhileReset_keeps_bufferInv {s : State} (h : BufferInv s) (a : Act) (hr : s.resetHeld = true) :
    BufferInv (actWhileReset a s) := by
  obtain ⟨_, _, _, _, _, _, e⟩ := actWhileReset_cases a s hr
  rw [e]
  exact h.of_kept (by constructor <;> simp)

/-! ### A step -/

theorem step_keeps_bufferInv {s t : State} (h : BufferInv s) (hs : step s = .next t) : BufferInv t := by
  have hscript : ∀ rest, BufferInv { s with script := rest } := fun rest => h.of_kept (by constructor <;> simp)
  by_cases hr : s.resetHeld = true
  · rcases step_cases_reset hr hs with ⟨-, rfl⟩ | ⟨a, rest, -, rfl⟩ | ⟨c, rest, -, rfl⟩
    · exact h.of_kept (by constructor <;> simp)
    · exact actWhileReset_keeps_bufferInv (hscript rest) a hr
    · exact hscript rest
  · rcases step_cases (by simpa using hr) hs with
      ⟨-, he⟩ | ⟨-, -, rfl⟩ | ⟨a, rest, -, rfl⟩ | ⟨c, rest, i, -, -, rfl⟩ | ⟨c, rest, _, -, -, rfl⟩
    · exact engineStep_keeps_bufferInv h he
    · exact h.of_kept (by constructor <;> simp)
    · exact applyAct_keeps_bufferInv (hscript rest) a
    · exact issueInstr_keeps_bufferInv (hscript rest) i
    · exact issueCommand_keeps_bufferInv (hscript rest) c runNothing fun _ ha => ha

/-- Settles O46: the buffers' bounds are an invariant of every move, with no other invariant needed. -/
theorem buffersStayInBounds : Obligations.BuffersStayInBounds :=
  fun _ _ h hs => step_keeps_bufferInv h hs

end Sys2Proof.Machine
end

section
/-! SUPPORT. Where no row of R203 is enabled (R12): the guards of a waiting state, and that the engine then has no step. -/

namespace Sys2Proof.Machine

theorem onFault_of_clear {s : State} (rest : Option State) (h : s.tpFault = false) : onFault rest s = rest := by
  simp [onFault, h]

theorem onOverrun_of_clear {s : State} (rest : Option State) (h : s.rxovr = false) : onOverrun rest s = rest := by
  simp [onOverrun, h]

theorem expired_of_lt {d : Time} {s : State} (h : s.now < d) : expired d s = false := by
  simpa [expired] using h

theorem engineRows_of_st {s : State} (h : s.st = .idle ∨ s.st = .closed) : engineRows s = none := by
  rcases h with h | h <;> simp [engineRows, h]

theorem engineRows_opening {s : State} (hst : s.st = .opening) (ha : s.tpAns = none) : engineRows s = none := by
  simp [engineRows, hst, stepOpening, ha]

theorem engineRows_control {s : State} (hf : s.tpFault = false) (hst : s.st = .ctl ∨ s.st = .settle)
    (hd : s.now < s.dl) : engineRows s = none := by
  rcases hst with hst | hst
  · simp [engineRows, hst, onFault_of_clear _ hf, stepCtl, expired_of_lt hd]
  · simp [engineRows, hst, onFault_of_clear _ hf, stepSettle, expired_of_lt hd]

theorem engineRows_tx {s : State} (hf : s.tpFault = false) (hst : s.st = .tx) (hi : s.txi < s.flen)
    (hr : s.txReady = false) (hd : s.now < s.dl) : engineRows s = none := by
  simp [engineRows, hst, onFault_of_clear _ hf, stepTx, hi, hi.ne, hr, expired_of_lt hd]

theorem engineRows_byte {s : State} (hf : s.tpFault = false) (hst : s.st = .ackwait ∨ s.st = .rdCount ∨ s.st = .rdDelim)
    (ho : s.rxovr = false) (hq : s.rxq = []) (hd : s.now < s.dl) : engineRows s = none := by
  rcases hst with hst | hst | hst
  · simp [engineRows, hst, onFault_of_clear _ hf, onOverrun_of_clear _ ho, stepAckwait, hq, expired_of_lt hd]
  · simp [engineRows, hst, onFault_of_clear _ hf, onOverrun_of_clear _ ho, stepRdCount, hq, expired_of_lt hd]
  · simp [engineRows, hst, onFault_of_clear _ hf, onOverrun_of_clear _ ho, stepRdDelim, hq, expired_of_lt hd]

theorem engineRows_quiet {s : State} (hf : s.tpFault = false) (hst : s.st = .rdQuiet) (ho : s.rxovr = false)
    (hd : s.now < s.qdl) : engineRows s = none := by
  simp [engineRows, hst, onFault_of_clear _ hf, onOverrun_of_clear _ ho, stepRdQuiet, expired_of_lt hd]

/-- An engine move without an enabled row changes nothing, whether or not reset is held (log 1). -/
theorem turn_engine_of_none {s : State} (h : engineStep s = none) : s.turn .engine = .next s := by
  by_cases hr : s.resetHeld = true
  · exact turn_eq_reset .engine s hr
  · rw [turn_eq .engine s (by simpa using hr)]
    simp [applyAct, engineMove, h]

/-- Settles O38: each disjunct of the hypothesis is a state in which no row's guard holds. -/
theorem engineWaits : Obligations.EngineWaits := by
  intro s hf hw
  refine turn_engine_of_none (show engineRows { s with txValid := false } = none from ?_)
  rcases hw with hst | hst | ⟨hst, ha⟩ | ⟨hst, hd⟩ | ⟨hst, hi, hr, hd⟩ | ⟨hst, ho, hq, hd⟩ | ⟨hst, ho, hd⟩
  · exact engineRows_of_st (.inl hst)
  · exact engineRows_of_st (.inr hst)
  · exact engineRows_opening hst ha
  · exact engineRows_control hf hst hd
  · exact engineRows_tx hf hst hi hr hd
  · exact engineRows_byte hf hst ho hq hd
  · exact engineRows_quiet hf hst ho hd

end Sys2Proof.Machine
end

section
/-! SUPPORT. Nothing stops the block (R14, R280). -/

namespace Sys2Proof.Machine

theorem exec_completes (i : Instr) (s : State) : ∃ t, exec i s = .next t := ⟨_, exec_eq i s⟩

/-- A step is a move of the reference schedule, of an agent, or the issue of a command, which is lost, run or refused. -/
theorem step_completes (s : State) : ∃ t, step s = .next t := by
  unfold step
  split
  · exact ⟨_, rfl⟩
  · exact ⟨_, rfl⟩
  · split
    · exact ⟨_, rfl⟩
    · split
      · exact exec_completes _ _
      · exact ⟨_, rfl⟩

/-- Settles O24: every arm of `exec` issues a command, and the issue of a command has a next state. -/
theorem everyStepCompletes : Obligations.EveryStepCompletes :=
  ⟨exec_completes, step_completes⟩

end Sys2Proof.Machine
end

section
/-! SUPPORT. What every row of R203 but the last two does to the running exchange: where it leads, which registers it leaves alone,
and what it adds to the log. The last two, `FAILED` and `RELEASE`, are `afterFailure` and `finishSuccess`. -/

namespace Sys2Proof.Machine

/-! ### Entries of the log that count attempts (R164, R289) -/

/-- The events that `attemptsSinceDone` counts or starts again at. -/
def Event.marksAttempt : Event → Bool
  | .attemptStart _ | .done _ _ => true
  | _ => false

theorem attemptsSinceDone_concat_attemptStart (log : List LogEntry) (now : Time) (n : BitVec 8) :
    attemptsSinceDone (log ++ [⟨now, .attemptStart n⟩]) = attemptsSinceDone log + 1 := by
  simp [attemptsSinceDone]

theorem attemptsSinceDone_concat_done (log : List LogEntry) (now : Time) (ok : Bool) (k : ErrKind) :
    attemptsSinceDone (log ++ [⟨now, .done ok k⟩]) = 0 := by
  simp [attemptsSinceDone]

theorem attemptsSinceDone_concat (log : List LogEntry) (x : LogEntry) (h : x.event.marksAttempt = false) :
    attemptsSinceDone (log ++ [x]) = attemptsSinceDone log := by
  obtain ⟨now, e⟩ := x
  cases e <;> simp_all [attemptsSinceDone, Event.marksAttempt]

theorem attemptsSinceDone_append (log es : List LogEntry) (h : ∀ x ∈ es, x.event.marksAttempt = false) :
    attemptsSinceDone (log ++ es) = attemptsSinceDone log := by
  induction es generalizing log with
  | nil => simp
  | cons x es ih =>
    obtain ⟨hx, hes⟩ := List.forall_mem_cons.1 h
    rw [List.append_cons, ih _ hes, attemptsSinceDone_concat log x hx]

/-- Giving up the transport starts and ends no attempt (R285). -/
theorem attemptsSinceDone_release (s : State) : attemptsSinceDone (release s).evt = attemptsSinceDone s.evt := by
  rw [release_evt]
  refine attemptsSinceDone_append _ _ ?_
  split <;> simp [Event.marksAttempt]

/-! ### The actions that branch, row by row (R189, R193, R197) -/

/-- A response byte overflows the trace, ends the read, or leaves it waiting for the next byte. -/
theorem takeResponse_cases (stop : State → Bool) (b : Byte) (s : State) :
    (s.tlen = tmax ∧ takeResponse stop b s = raise .transportFault .traceOverflow s) ∨
    (stop { s with trace := store s.trace s.tlen b, tlen := s.tlen + 1 } = true ∧ takeResponse stop b s =
      succeed (emit (.rx b) { s with trace := store s.trace s.tlen b, tlen := s.tlen + 1 })) ∨
    (stop { s with trace := store s.trace s.tlen b, tlen := s.tlen + 1 } = false ∧ takeResponse stop b s =
      emit (.rx b) { s with trace := store s.trace s.tlen b, tlen := s.tlen + 1 }) := by
  rcases append_cases b (fun s => if stop s then succeed (emit (.rx b) s) else emit (.rx b) s) s with ⟨h, e⟩ | ⟨-, e⟩
  · exact .inl ⟨h, e⟩
  · cases hs : stop { s with trace := store s.trace s.tlen b, tlen := s.tlen + 1 }
    · exact .inr (.inr ⟨rfl, e.trans (by simp [hs])⟩)
    · exact .inr (.inl ⟨rfl, e.trans (by simp [hs])⟩)

theorem EngState.faultVisible_of_reading {st : EngState} (h : st.reading = true) : st.faultVisible = true := by
  cases st <;> simp_all [EngState.reading, EngState.faultVisible]

theorem EngState.engineOwned_of_faultVisible {st : EngState} (h : st.faultVisible = true) : st.engineOwned = true := by
  cases st <;> simp_all [EngState.faultVisible, EngState.engineOwned]

theorem EngState.ne_opening_of_faultVisible {st : EngState} (h : st.faultVisible = true) : st ≠ .opening := by
  rintro rfl; cases h

theorem readEntryState_dest (s : State) :
    ((readEntryState s).faultVisible = true ∨ readEntryState s = .release) ∧
    readEntryState s ≠ .ctl ∧ readEntryState s ≠ .tx := by
  rcases readEntryState_mem s with h | h | h | h <;> simp [h, EngState.faultVisible]

/-! ### The rows of a running exchange -/

/-- The outcome, the flags and the attempt stand, and the log has grown by no mark of an attempt. -/
structure ExchangeKept (s t : State) : Prop where
  busy : t.busy = s.busy
  done : t.done = s.done
  tpReq : t.tpReq = s.tpReq
  attempt : t.attempt = s.attempt
  ok : t.ok = s.ok
  errkind : t.errkind = s.errkind
  succkind : t.succkind = s.succkind
  log : s.evt <+: t.evt
  attempts : attemptsSinceDone t.evt = attemptsSinceDone s.evt

theorem ExchangeKept.trans {s t u : State} (h : ExchangeKept s t) (k : ExchangeKept t u) : ExchangeKept s u where
  busy := k.busy.trans h.busy
  done := k.done.trans h.done
  tpReq := k.tpReq.trans h.tpReq
  attempt := k.attempt.trans h.attempt
  ok := k.ok.trans h.ok
  errkind := k.errkind.trans h.errkind
  succkind := k.succkind.trans h.succkind
  log := h.log.trans k.log
  attempts := k.attempts.trans h.attempts

/-- Adding one event that marks no attempt keeps the exchange, whatever else of the engine moves. -/
theorem ExchangeKept.of_event {s t : State} {e : Event} (he : e.marksAttempt = false) (hevt : t.evt = s.evt ++ [⟨s.now, e⟩])
    (h : (t.busy, t.done, t.tpReq, t.attempt, t.ok, t.errkind, t.succkind) =
      (s.busy, s.done, s.tpReq, s.attempt, s.ok, s.errkind, s.succkind)) : ExchangeKept s t := by
  simp only [Prod.mk.injEq] at h
  obtain ⟨busy, done, tpReq, attempt, ok, errkind, succkind⟩ := h
  exact ⟨busy, done, tpReq, attempt, ok, errkind, succkind, hevt ▸ List.prefix_append _ _,
    by rw [hevt]; exact attemptsSinceDone_concat _ _ he⟩

/-- What a row leaves of the exchange while it runs on: it leads to a state that looks at faults, to `RELEASE`, or with an error to
`FAILED`; the transport's lines and inputs move only as its states say. -/
structure ExchangeRuns (s t : State) : Prop where
  source : s.st = .opening ∨ s.st.faultVisible = true
  dest : (t.st = .failed ∧ t.lastErr ≠ .none ∧ t.lastErr ≠ .configurationMissing) ∨
    ((t.st.faultVisible = true ∨ t.st = .release) ∧ t.lastErr = s.lastErr)
  kept : ExchangeKept s t
  owned : t.st ≠ .failed → s.st = .opening ∨ s.owned = true → t.owned = true
  tpAns : t.tpAns = none ∨ (s.st ≠ .opening ∧ t.tpAns = s.tpAns)
  tpFault : t.tpFault = true → s.st = .opening ∧ s.tpFault = true
  ctlLine : (s.st = .purge ∧ t.st = .ctl ∧ t.ctlLine = !s.ctlLine) ∨
    (s.st = .ctl ∧ t.st = .settle ∧ t.ctlLine = !s.ctlLine) ∨
    (t.st ≠ .ctl ∧ (s.st = .ctl → t.st = .failed) ∧ t.ctlLine = s.ctlLine)

/-- The exchange, the transport's lines and its inputs stand. -/
structure LinesKept (s t : State) : Prop where
  kept : ExchangeKept s t
  owned : t.owned = s.owned
  ctlLine : t.ctlLine = s.ctlLine
  tpAns : t.tpAns = s.tpAns
  tpFault : t.tpFault = s.tpFault

theorem LinesKept.trans {s t u : State} (h : LinesKept s t) (k : LinesKept t u) : LinesKept s u where
  kept := h.kept.trans k.kept
  owned := k.owned.trans h.owned
  ctlLine := k.ctlLine.trans h.ctlLine
  tpAns := k.tpAns.trans h.tpAns
  tpFault := k.tpFault.trans h.tpFault

theorem LinesKept.of_eq {s t : State} (h : (t.busy, t.done, t.tpReq, t.attempt, t.ok, t.errkind, t.succkind, t.owned, t.ctlLine,
      t.tpAns, t.tpFault, t.evt) =
    (s.busy, s.done, s.tpReq, s.attempt, s.ok, s.errkind, s.succkind, s.owned, s.ctlLine, s.tpAns, s.tpFault, s.evt)) :
    LinesKept s t := by
  simp only [Prod.mk.injEq] at h
  obtain ⟨busy, done, tpReq, attempt, ok, errkind, succkind, owned, ctlLine, tpAns, tpFault, evt⟩ := h
  exact ⟨⟨busy, done, tpReq, attempt, ok, errkind, succkind, evt ▸ List.prefix_rfl, by rw [evt]⟩, owned, ctlLine,
    tpAns, tpFault⟩

theorem LinesKept.of_event {s t : State} (e : Event) (he : e.marksAttempt = false)
    (h : (t.busy, t.done, t.tpReq, t.attempt, t.ok, t.errkind, t.succkind, t.owned, t.ctlLine, t.tpAns, t.tpFault, t.evt) =
      (s.busy, s.done, s.tpReq, s.attempt, s.ok, s.errkind, s.succkind, s.owned, s.ctlLine, s.tpAns, s.tpFault,
        s.evt ++ [⟨s.now, e⟩])) : LinesKept s t := by
  simp only [Prod.mk.injEq] at h
  obtain ⟨busy, done, tpReq, attempt, ok, errkind, succkind, owned, ctlLine, tpAns, tpFault, evt⟩ := h
  exact ⟨.of_event he evt (by simp only [*]), owned, ctlLine, tpAns, tpFault⟩

theorem raise_keeps_lines (k : ErrKind) (info : FailInfo) (s : State) : LinesKept s (raise k info s) :=
  .of_event (.attemptFail k info) rfl rfl

theorem enterRead_keeps_lines (s : State) : LinesKept s (enterRead s) :=
  .of_event (.readStart (readMode s.l) (s.now + s.l.rdto)) rfl rfl

theorem transmitByte_keeps_lines (s : State) : LinesKept s (transmitByte s) :=
  .of_event (.tx (readCell s .frame s.txi)) rfl (by simp)

section
variable {s u : State} (hst : s.st.faultVisible = true) (hf : s.tpFault = false)
include hst hf

theorem ExchangeRuns.of_raise (h : LinesKept s u) (k : ErrKind) (info : FailInfo)
    (hk : k ≠ .none ∧ k ≠ .configurationMissing) : ExchangeRuns s (raise k info u) := by
  have r := h.trans (raise_keeps_lines k info u)
  exact ⟨.inr hst, .inl ⟨rfl, hk⟩, r.kept, fun h => absurd rfl h,
    .inr ⟨EngState.ne_opening_of_faultVisible hst, r.tpAns⟩, fun h' => (by cases h'.symm.trans (r.tpFault.trans hf)),
    .inr (.inr ⟨by simp, by simp, r.ctlLine⟩)⟩

theorem ExchangeRuns.of_lines {t : State} (h : LinesKept s t) (hc : s.st ≠ .ctl ∧ t.st ≠ .ctl)
    (hd : t.st.faultVisible = true ∨ t.st = .release) (hl : t.lastErr = s.lastErr) : ExchangeRuns s t := by
  have ho := EngState.ne_opening_of_faultVisible hst
  exact ⟨.inr hst, .inr ⟨hd, hl⟩, h.kept, fun _ hs => h.owned.trans (hs.resolve_left ho), .inr ⟨ho, h.tpAns⟩,
    fun h' => (by cases h'.symm.trans (h.tpFault.trans hf)), .inr (.inr ⟨hc.2, fun h' => absurd h' hc.1, h.ctlLine⟩)⟩

theorem ExchangeRuns.of_enterRead (h : LinesKept s u) (hc : s.st ≠ .ctl) (hl : u.lastErr = s.lastErr) :
    ExchangeRuns s (enterRead u) :=
  .of_lines hst hf (h.trans (enterRead_keeps_lines u)) ⟨hc, (readEntryState_dest u).2.1⟩ (readEntryState_dest u).1 hl

theorem ExchangeRuns.of_succeed (h : LinesKept s u) (hc : s.st ≠ .ctl) (hl : u.lastErr = s.lastErr) :
    ExchangeRuns s (succeed u) :=
  .of_lines hst hf (h.trans (.of_eq rfl)) ⟨hc, by simp⟩ (.inr rfl) hl

theorem afterTransmission_runs (h : LinesKept s u) (hc : s.st ≠ .ctl) (hl : u.lastErr = s.lastErr) :
    ExchangeRuns s (afterTransmission u) := by
  rcases afterTransmission_cases u with ⟨-, e⟩ | ⟨-, -, e⟩ | ⟨-, -, e⟩ <;> rw [e]
  · exact .of_lines hst hf (h.trans (.of_eq rfl)) ⟨hc, by simp⟩ (.inl rfl) hl
  · exact .of_succeed hst hf h hc hl
  · exact .of_enterRead hst hf h hc hl

theorem takeHandshake_runs (b : Byte) (h : LinesKept s u) (hc : s.st ≠ .ctl) (hl : u.lastErr = s.lastErr) :
    ExchangeRuns s (takeHandshake b u) := by
  rcases takeHandshake_cases b u with ⟨-, e⟩ | ⟨-, -, e⟩ | ⟨-, -, e⟩ <;> rw [e]
  · exact .of_raise hst hf (h.trans (.of_event .nak rfl rfl)) _ _ (by simp)
  · exact .of_enterRead hst hf (h.trans (.of_event .ackOk rfl rfl)) hc hl
  · rcases append_cases b (fun s => enterRead (emit (.ackFallthrough b) s)) u with ⟨-, e⟩ | ⟨-, e⟩ <;> rw [e]
    · exact .of_raise hst hf h _ _ (by simp)
    · exact .of_enterRead hst hf (h.trans (.of_event (.ackFallthrough b) rfl rfl)) hc hl

theorem takeResponse_runs (stop : State → Bool) (b : Byte) (h : LinesKept s u) (hc : s.st ≠ .ctl) (hu : u.st = s.st)
    (hl : u.lastErr = s.lastErr) : ExchangeRuns s (takeResponse stop b u) := by
  rcases takeResponse_cases stop b u with ⟨-, e⟩ | ⟨-, e⟩ | ⟨-, e⟩ <;> rw [e]
  · exact .of_raise hst hf h _ _ (by simp)
  · exact .of_succeed hst hf (h.trans (.of_event (.rx b) rfl rfl)) hc hl
  · exact .of_lines hst hf (h.trans (.of_event (.rx b) rfl rfl)) ⟨hc, by simpa [hu] using hc⟩
      (.inl (by simpa [hu] using hst)) hl

theorem delimDeadline_runs (hc : s.st ≠ .ctl) : ExchangeRuns s (delimDeadline s) := by
  rcases delimDeadline_cases s with ⟨-, e⟩ | ⟨-, e⟩ <;> rw [e]
  · exact .of_raise hst hf (.of_event .readDeadline rfl rfl) _ _ (by simp)
  · exact .of_succeed hst hf (.of_event .readDeadline rfl rfl) hc rfl

theorem shortRead_runs : ExchangeRuns s (shortRead s) :=
  have h : LinesKept s (emit (.shortRead s.l.expbytes s.tlen) { s with expn := s.l.expbytes, gotn := s.tlen }) :=
    .of_event (.shortRead s.l.expbytes s.tlen) rfl rfl
  .of_raise hst hf (h.trans (.of_event .purge rfl rfl)) _ _ (by simp)

end

/-- A row of R203 lets the exchange run on, or it is the step of `FAILED` or of `RELEASE`. -/
theorem engineRow_cases {s t : State} (row : EngineRow s t) :
    ExchangeRuns s t ∨ (s.st = .failed ∧ t = afterFailure s) ∨ (s.st = .release ∧ t = finishSuccess s) := by
  have visible {st : EngState} (hst : s.st = st) (h : st.faultVisible = true) : s.st.faultVisible = true := hst ▸ h
  cases row with
  | failed hst => exact .inr (.inl ⟨hst, rfl⟩)
  | release hst => exact .inr (.inr ⟨hst, rfl⟩)
  | openGranted hst =>
    exact .inl ⟨.inl hst, .inr ⟨.inl rfl, rfl⟩, .of_event (e := .openOk) rfl rfl rfl, fun _ _ => rfl, .inl rfl,
      fun h => ⟨hst, h⟩, .inr (.inr ⟨by simp, by simp [hst], rfl⟩)⟩
  | openFailed hst =>
    have k : ExchangeKept s (emit .openFail { s with tpAns := none }) := .of_event (e := .openFail) rfl rfl rfl
    exact .inl ⟨.inl hst, .inl ⟨rfl, by simp⟩, k.trans (raise_keeps_lines _ _ _).kept, fun h => absurd rfl h, .inl rfl,
      fun h => ⟨hst, h⟩, .inr (.inr ⟨by simp, by simp, rfl⟩)⟩
  | fault hst =>
    exact .inl ⟨.inr hst, .inl ⟨rfl, by simp⟩, .of_event (e := .attemptFail .transportFault .ioFault) rfl rfl rfl,
      fun h => absurd rfl h, .inr ⟨EngState.ne_opening_of_faultVisible hst, rfl⟩, fun h => by simp at h,
      .inr (.inr ⟨by simp, by simp, rfl⟩)⟩
  | purge hst hf =>
    have k : ExchangeKept s (emit .purge { rxPurge s with tlen := 0 }) := .of_event (e := .purge) rfl rfl rfl
    exact .inl ⟨.inr (visible hst rfl), .inr ⟨.inl rfl, rfl⟩, k.trans (.of_event (e := .ctlToggle) rfl rfl rfl),
      fun _ h => h.resolve_left (by simp [hst]), .inr ⟨by simp [hst], rfl⟩, fun h => by simp [hf] at h,
      .inl ⟨hst, rfl, by simp⟩⟩
  | ctl hst hf =>
    exact .inl ⟨.inr (visible hst rfl), .inr ⟨.inl rfl, rfl⟩, ⟨rfl, rfl, rfl, rfl, rfl, rfl, rfl, List.prefix_rfl, rfl⟩,
      fun _ h => h.resolve_left (by simp [hst]), .inr ⟨by simp [hst], rfl⟩, fun h => by simp [hf] at h,
      .inr (.inl ⟨hst, rfl, rfl⟩)⟩
  | overrun hst hf => exact .inl (.of_raise (EngState.faultVisible_of_reading hst) hf (.of_eq rfl) _ _ (by simp))
  | settle hst hf => exact .inl (.of_lines (visible hst rfl) hf (.of_eq rfl) (by simp [hst]) (.inl rfl) rfl)
  | txDone hst hf =>
    exact .inl (afterTransmission_runs (visible hst rfl) hf (.of_event (.txDone s.flen) rfl rfl) (by simp [hst]) rfl)
  | txByte hst hf =>
    exact .inl (.of_lines (visible hst rfl) hf (transmitByte_keeps_lines s) (by simp [hst])
      (.inl (by simpa using visible hst rfl)) rfl)
  | txTimeout hst hf => exact .inl (.of_raise (visible hst rfl) hf (.of_eq rfl) _ _ (by simp))
  | handshake b rest hst hf => exact .inl (takeHandshake_runs (visible hst rfl) hf b (.of_eq rfl) (by simp [hst]) rfl)
  | ackTimeout hst hf => exact .inl (.of_raise (visible hst rfl) hf (.of_event .ackTimeout rfl rfl) _ _ (by simp))
  | countByte b rest hst hf | delimByte b rest hst hf | burstByte b rest hst hf =>
    exact .inl (takeResponse_runs (visible hst rfl) hf _ b (.of_eq rfl) (by simp [hst]) rfl rfl)
  | countTimeout hst hf => exact .inl (shortRead_runs (visible hst rfl) hf)
  | delimTimeout hst hf => exact .inl (delimDeadline_runs (visible hst rfl) hf (by simp [hst]))
  | burstEnd hst hf => exact .inl (.of_succeed (visible hst rfl) hf (.of_event .readDeadline rfl rfl) (by simp [hst]) rfl)
  | quietStop hst hf => exact .inl (.of_succeed (visible hst rfl) hf (.of_event .quietStop rfl rfl) (by simp [hst]) rfl)
  | burstQuiet hst hf | quietLoop hst hf =>
    exact .inl (.of_lines (visible hst rfl) hf (.of_eq rfl) (by simp [hst]) (.inl rfl) rfl)

end Sys2Proof.Machine
end

section
/-! SUPPORT. The outcome record (R44, R199, R271) and the count of attempts (R36, R164, R204): both are properties of the registers that
`SameEngine` names, so the rows of the engine, the start of an exchange and reset decide them. -/

namespace Sys2Proof.Machine

/-! ### The outcome record -/

theorem OutcomeInv.of_sameEngine {s t : State} (h : OutcomeInv s) (k : SameEngine s t) : OutcomeInv t where
  okNoError := by rw [k.ok, k.errkind]; exact h.okNoError
  notOkNoSuccess := by rw [k.ok, k.succkind]; exact h.notOkNoSuccess
  neverMissing := by rw [k.errkind, k.lastErr]; exact h.neverMissing
  failedHasError := by rw [k.st, k.lastErr]; exact h.failedHasError
  closedDecided := by rw [k.st, k.ok, k.errkind, k.succkind]; exact h.closedDecided

theorem successKind_ne_none (s : State) : successKind s ≠ .none := by
  unfold successKind
  split
  · simp
  · split <;> simp

/-- An outcome with an error is a consistent one. -/
theorem outcomeInv_writeOutcome_error {k : ErrKind} (s : State) (hk : k ≠ .none ∧ k ≠ .configurationMissing)
    (hl : s.lastErr ≠ .configurationMissing) : OutcomeInv (writeOutcome false k .none s) := by
  constructor <;> simp [hk, hl]

theorem outcomeInv_writeOutcome_success {c : SuccKind} (s : State) (hc : c ≠ .none)
    (hl : s.lastErr ≠ .configurationMissing) : OutcomeInv (writeOutcome true .none c s) := by
  constructor <;> simp [hc, hl]

/-- While an exchange runs on, the outcome stands and an error is recorded exactly on the way to `FAILED` (R270). -/
theorem OutcomeInv.of_runs {s t : State} (h : OutcomeInv s) (r : ExchangeRuns s t) : OutcomeInv t where
  okNoError := by rw [r.kept.ok, r.kept.errkind]; exact h.okNoError
  notOkNoSuccess := by rw [r.kept.ok, r.kept.succkind]; exact h.notOkNoSuccess
  neverMissing := by
    rw [r.kept.errkind]
    refine ⟨h.neverMissing.1, ?_⟩
    rcases r.dest with ⟨-, -, hl⟩ | ⟨-, hl⟩
    · exact hl
    · rw [hl]; exact h.neverMissing.2
  failedHasError ht := by
    rcases r.dest with ⟨-, hl, -⟩ | ⟨hd, -⟩
    · exact hl
    · simp [ht, EngState.faultVisible] at hd
  closedDecided ht := by
    rcases r.dest with ⟨hd, -⟩ | ⟨hd, -⟩ <;> simp [ht, EngState.faultVisible] at hd

theorem OutcomeInv.afterFailure {s : State} (h : OutcomeInv s) (hst : s.st = .failed) : OutcomeInv (afterFailure s) := by
  rcases afterFailure_cases s with ⟨-, e⟩ | ⟨-, e⟩ <;> rw [e]
  · exact ⟨h.okNoError, h.notOkNoSuccess, h.neverMissing, by simp, by simp⟩
  · exact outcomeInv_writeOutcome_error _ ⟨h.failedHasError hst, h.neverMissing.2⟩ h.neverMissing.2

theorem OutcomeInv.finishSuccess {s : State} (h : OutcomeInv s) : OutcomeInv (finishSuccess s) := by
  rcases finishSuccess_cases s with ⟨-, e⟩ | ⟨-, e⟩ <;> rw [e]
  · exact outcomeInv_writeOutcome_error _ (by simp) h.neverMissing.2
  · exact outcomeInv_writeOutcome_success _ (successKind_ne_none s) h.neverMissing.2

theorem engineRow_keeps_outcomeInv {s t : State} (h : OutcomeInv s) (row : EngineRow s t) : OutcomeInv t := by
  rcases engineRow_cases row with r | ⟨hst, rfl⟩ | ⟨-, rfl⟩
  · exact h.of_runs r
  · exact h.afterFailure hst
  · exact h.finishSuccess

/-- Settles O49: an invariant of the rows, the start of an exchange (which clears the record) and reset. -/
theorem outcomeStaysConsistent : Obligations.OutcomeStaysConsistent := fun s t h hs =>
  step_keeps (fun _ => True) OutcomeInv (fun _ _ => OutcomeInv.of_sameEngine) (fun _ _ _ => trivial) (fun _ _ => trivial)
    (fun _ _ _ => engineRow_keeps_outcomeInv)
    (fun _ _ _ _ _ _ => by constructor <;> simp)
    (fun _ => by constructor <;> simp [assertReset, State.reset]) s t trivial h hs

/-! ### The count of attempts -/

/-- The log holds one `AttemptStart` for each attempt of the running exchange, and none after it (R204 (e)). -/
def attemptsCounted (s : State) : Prop := attemptsSinceDone s.evt = (if s.busy then s.attempt.toNat else 0)

theorem attemptsCounted_of_sameEngine {s t : State} (h : attemptsCounted s) (k : SameEngine s t) : attemptsCounted t := by
  unfold attemptsCounted
  rw [k.evt, k.busy, k.attempt]
  exact h

theorem attemptsCounted_of_runs {s t : State} (h : attemptsCounted s) (r : ExchangeRuns s t) : attemptsCounted t := by
  unfold attemptsCounted
  rw [r.kept.attempts, r.kept.busy, r.kept.attempt]
  exact h

theorem attemptsCounted_writeOutcome (ok : Bool) (k : ErrKind) (c : SuccKind) (s : State) :
    attemptsCounted (writeOutcome ok k c s) := by
  simp [attemptsCounted, attemptsSinceDone_concat_done]

/-- The next attempt is counted by its `AttemptStart`; the last one's failure ends the exchange (R271). -/
theorem attemptsCounted_afterFailure {s : State} (h : attemptsCounted s) (hb : s.busy = true) :
    attemptsCounted (afterFailure s) := by
  rcases afterFailure_cases s with ⟨hlt, e⟩ | ⟨-, e⟩ <;> rw [e]
  · have hnext : (s.attempt + 1).toNat = s.attempt.toNat + 1 := by bv_omega
    have hlog : attemptsSinceDone (release s).evt = s.attempt.toNat := by
      rw [attemptsSinceDone_release]
      simpa [attemptsCounted, hb] using h
    show attemptsSinceDone ((release s).evt ++ [⟨s.now, .attemptStart (s.attempt + 1)⟩]) = if s.busy then _ else 0
    rw [attemptsSinceDone_concat_attemptStart, hlog, if_pos hb]
    exact hnext.symm
  · exact attemptsCounted_writeOutcome _ _ _ _

theorem attemptsCounted_finishSuccess (s : State) : attemptsCounted (finishSuccess s) := by
  rcases finishSuccess_cases s with ⟨-, e⟩ | ⟨-, e⟩ <;> rw [e] <;> exact attemptsCounted_writeOutcome _ _ _ _

/-- The ownership invariant speaks of these registers only. -/
theorem OwnershipInv.of_eq {s t : State} (h : OwnershipInv s)
    (k : (t.st, t.busy, t.done, t.tpReq, t.owned, t.ctlLine, t.tpAns, t.tpFault) =
      (s.st, s.busy, s.done, s.tpReq, s.owned, s.ctlLine, s.tpAns, s.tpFault)) : OwnershipInv t := by
  simp only [Prod.mk.injEq] at k
  obtain ⟨st, busy, done, tpReq, owned, ctlLine, tpAns, tpFault⟩ := k
  constructor <;> simp only [st, busy, done, tpReq, owned, ctlLine, tpAns, tpFault]
  exacts [h.busyIff, h.requestIff, h.doneIdle, h.ownedWhileUsed, h.notOwned, h.answerPending, h.faultPending,
    h.controlIdle, h.controlPulse]

/-- In a state that the engine owns, the flag `BUSY` stands (R45). -/
theorem OwnershipInv.busy_of_owned {s : State} (h : OwnershipInv s) (hst : s.st.engineOwned = true) : s.busy = true :=
  h.busyIff.trans hst

theorem engineRow_keeps_attemptsCounted {s t : State} (ho : OwnershipInv s) (h : attemptsCounted s) (row : EngineRow s t) :
    attemptsCounted t := by
  rcases engineRow_cases row with r | ⟨hst, rfl⟩ | ⟨-, rfl⟩
  · exact attemptsCounted_of_runs h r
  · exact attemptsCounted_afterFailure h (ho.busy_of_owned (by rw [hst]; rfl))
  · exact attemptsCounted_finishSuccess s

theorem attemptsCounted_startExchange {s : State} (h : attemptsCounted s) (hb : s.busy = false) (c : Byte)
    (m : ChecksumMode) : attemptsCounted (startExchange c m (accept (takeCommand c s))) := by
  have hlog : attemptsSinceDone s.evt = 0 := by simpa [attemptsCounted, hb] using h
  simp [attemptsCounted, attemptsSinceDone_concat_attemptStart, hlog]

/-- Settles O51: every row adds as many marks as it advances `ATTEMPT`; only the ownership of the exchange is needed. -/
theorem attemptsAreCounted : Obligations.AttemptsAreCounted := fun s t ho _ h hs =>
  step_keeps OwnershipInv attemptsCounted (fun _ _ => attemptsCounted_of_sameEngine)
    (fun _ _ h => h.of_eq rfl) (fun _ h => h.of_eq rfl)
    (fun _ _ => engineRow_keeps_attemptsCounted)
    (fun _ c m _ h hb => attemptsCounted_startExchange h hb c m)
    (fun _ => rfl) s t ho h hs

end Sys2Proof.Machine
end

section
/-! SUPPORT. What a step of the machine can do, said once by its effect: a row of the engine, a tick, a move of the environment, a
command or host write that leaves the engine alone, the start of an exchange, or the assertion of reset. -/

namespace Sys2Proof.Machine

/-- What the host's writes and the commands that start no exchange leave alone. -/
structure HostKept (s t : State) : Prop where
  st : t.st = s.st
  busy : t.busy = s.busy
  owned : t.owned = s.owned
  tpReq : t.tpReq = s.tpReq
  ctlLine : t.ctlLine = s.ctlLine
  tpAns : t.tpAns = s.tpAns
  tpFault : t.tpFault = s.tpFault
  evt : t.evt = s.evt
  now : t.now = s.now
  rxq : t.rxq = s.rxq
  rxStream : t.rxStream = s.rxStream
  txStream : t.txStream = s.txStream
  resetHeld : t.resetHeld = s.resetHeld

theorem HostKept.refl (s : State) : HostKept s s := by constructor <;> rfl

theorem HostKept.trans {s t u : State} (h : HostKept s t) (k : HostKept t u) : HostKept s u where
  st := k.st.trans h.st
  busy := k.busy.trans h.busy
  owned := k.owned.trans h.owned
  tpReq := k.tpReq.trans h.tpReq
  ctlLine := k.ctlLine.trans h.ctlLine
  tpAns := k.tpAns.trans h.tpAns
  tpFault := k.tpFault.trans h.tpFault
  evt := k.evt.trans h.evt
  now := k.now.trans h.now
  rxq := k.rxq.trans h.rxq
  rxStream := k.rxStream.trans h.rxStream
  txStream := k.txStream.trans h.txStream
  resetHeld := k.resetHeld.trans h.resetHeld

theorem performWrite_hostKept (w : HostWrite) (s : State) : HostKept s (performWrite w s) := by
  cases w with
  | cell b i v =>
    by_cases hi : i < b.capacity
    · rw [performWrite, if_pos hi]; constructor <;> rfl
    · rw [performWrite, if_neg hi]; constructor <;> rfl
  | len b n =>
    by_cases hn : n ≤ b.capacity
    · rw [performWrite, if_pos hn]; constructor <;> rfl
    · rw [performWrite, if_neg hn]; constructor <;> rfl
  | expbytes | rdto | cpValid | cpTpid | cpBaud | cpDbits | cpParity | cpSbits | cpFlow | cpRdto | cpWrto
  | cpRetries | vpfxen | vsuben => constructor <;> rfl

theorem runDecode_hostKept (wrap : Bool) (m : ChecksumMode) (s : State) : HostKept s (runDecode wrap m s) := by
  unfold runDecode
  cases decodeFrame (frameBytes s) wrap m <;> constructor <;> simp [loadDecoded]

/-- The operation of an instruction is an exchange or leaves the engine and its inputs alone. -/
theorem operationOf_host (i : Instr) :
    (cmdOp (encode i) = 3 ∧ operationOf i = exchangeOf (encode i)) ∨ ∀ s, HostKept s (operationOf i s) := by
  cases i with
  | xchgFF | xchgN | xchgAN | xchgAD | xchgAB => exact .inl ⟨by simp [encode], rfl⟩
  | decodeUNone | decodeUXor7 | decodeUSum8 | decodeWNone | decodeWXor7 | decodeWSum8 =>
    exact .inr fun s => runDecode_hostKept _ _ s
  | csumNone | csumXor7 | csumSum8 | buildUNone | buildUXor7 | buildUSum8 | buildWNone | buildWXor7 | buildWSum8
  | pfx | sub | reservedOp6 | reservedOp7 =>
    exact .inr fun s => by
      constructor <;> simp [operationOf, computeChecksum, runBuild, runPfx, runSub, runNothing]

/-- The effects of a step. -/
inductive StepEffect (s : State) : State → Prop where
  /-- The engine takes a row of R203. -/
  | engine (rest : List Move) (hr : s.resetHeld = false) {t : State}
      (row : EngineRow { s with script := rest, txValid := false } t) : StepEffect s t
  /-- The clock advances, scripted or alone (R60). -/
  | clock (rest : List Move) (hs : (s.script = [] ∧ rest = []) ∨ s.script = .act .tick :: rest) :
      StepEffect s { s with script := rest, now := s.now + 1 }
  /-- Nothing of the block moves: an input's level, the wire, the host's read data, the release of reset, or a move that is lost. -/
  | outside (rest : List Move) (ready level : Bool) (stream : List Byte) (data ctr : Nat) (hx : s.rxStream <+: stream) :
      StepEffect s
        { s with script := rest, txReady := ready, resetHeld := level, rxStream := stream, rdata := data, freeCtr := ctr }
  /-- A byte arrives (R43). -/
  | pushed (b : Byte) (rest : List Move) : StepEffect s (rxPush b { s with script := rest })
  /-- The transport answers the open request (R260). -/
  | answered (a : TpAnswer) (rest : List Move) (hst : s.st = .opening) :
      StepEffect s { s with script := rest, tpAns := some a }
  /-- The transport signals a fault (R260). -/
  | faulted (rest : List Move) (hst : s.st.faultVisible = true) : StepEffect s { s with script := rest, tpFault := true }
  /-- A command is written while busy (R267). -/
  | commandBusy (rest : List Move) (hb : s.busy = true) : StepEffect s { s with script := rest, cmderr := true }
  /-- While host-owned, a host write, a refused command, or one that starts no exchange. -/
  | host (hb : s.busy = false) {t : State} (k : HostKept s t) : StepEffect s t
  /-- An exchange is accepted (R162). -/
  | exchange (c : Byte) (m : ChecksumMode) (rest : List Move) (hb : s.busy = false) (hm : modeOfCsm (cmdCsm c) = some m)
      (hn : s.expbytes.toNat ≤ tmax) :
      StepEffect s (startExchange c m (accept (takeCommand c { s with script := rest })))
  /-- The reset input rises (R300). -/
  | reset (rest : List Move) (hs : s.script = .act (.reset true) :: rest) :
      StepEffect s (assertReset { s with script := rest })

/-- A move that does nothing but leave the script. -/
theorem StepEffect.lost (s : State) (rest : List Move) : StepEffect s { s with script := rest } :=
  .outside rest s.txReady s.resetHeld s.rxStream s.rdata s.freeCtr List.prefix_rfl

theorem hostRead_effect (r : HostReg) (s : State) (rest : List Move) :
    StepEffect s (hostRead r { s with script := rest }) := by
  rcases hostRead_cases r { s with script := rest } with ⟨v, -, e⟩ | ⟨-, e⟩ <;> rw [e]
  · exact .outside rest s.txReady s.resetHeld s.rxStream v s.freeCtr List.prefix_rfl
  · exact .outside rest s.txReady s.resetHeld s.rxStream _ _ List.prefix_rfl

theorem setReset_effect (level : Bool) (s : State) (rest : List Move) (hs : s.script = .act (.reset level) :: rest) :
    StepEffect s (setReset level { s with script := rest }) := by
  rcases setReset_cases level { s with script := rest } with ⟨rfl, -, e⟩ | e <;> rw [e]
  · exact .reset rest hs
  · exact .outside rest s.txReady level s.rxStream s.rdata s.freeCtr List.prefix_rfl

theorem applyAct_effect (a : Act) (s : State) (rest : List Move) (hs : s.script = .act a :: rest)
    (hr : s.resetHeld = false) : StepEffect s (applyAct a { s with script := rest }) := by
  cases a with
  | engine =>
    show StepEffect s (engineMove { s with script := rest })
    rcases engineMove_cases { s with script := rest } with ⟨t, he, e⟩ | ⟨-, e⟩ <;> rw [e]
    · exact .engine rest hr (engineStep_row he)
    · exact .lost s rest
  | tick => exact .clock rest (.inr hs)
  | rxPush b => exact .pushed b rest
  | tpAnswer a =>
    show StepEffect s (tpAnswer a { s with script := rest })
    rcases tpAnswer_cases a { s with script := rest } with ⟨⟨hst, -⟩, e⟩ | e <;> rw [e]
    · exact .answered a rest hst
    · exact .lost s rest
  | tpFault =>
    show StepEffect s (tpFaultMove { s with script := rest })
    rcases tpFaultMove_cases { s with script := rest } with ⟨⟨-, hst⟩, e⟩ | e <;> rw [e]
    · exact .faulted rest hst
    · exact .lost s rest
  | txReady level => exact .outside rest level s.resetHeld s.rxStream s.rdata s.freeCtr List.prefix_rfl
  | hostWrite w =>
    show StepEffect s (hostWrite w { s with script := rest })
    rcases Bool.eq_false_or_eq_true s.busy with hb | hb
    · rw [hostWrite_busy w { s with script := rest } hb]
      exact .lost s rest
    · rw [hostWrite_free w { s with script := rest } hb]
      have k : HostKept s { s with script := rest } := by constructor <;> rfl
      exact .host hb (k.trans (performWrite_hostKept w _))
  | hostRead r => exact hostRead_effect r s rest
  | reset level => exact setReset_effect level s rest hs

theorem actWhileReset_effect (a : Act) (s : State) (rest : List Move) (hs : s.script = .act a :: rest) :
    StepEffect s (actWhileReset a { s with script := rest }) := by
  cases a with
  | tick => exact .clock rest (.inr hs)
  | txReady level => exact .outside rest level s.resetHeld s.rxStream s.rdata s.freeCtr List.prefix_rfl
  | rxPush b => exact .outside rest s.txReady s.resetHeld (s.rxStream ++ [b]) s.rdata s.freeCtr (List.prefix_append _ _)
  | hostRead r => exact hostRead_effect r s rest
  | reset level => exact setReset_effect level s rest hs
  | engine | tpAnswer | tpFault | hostWrite => exact .lost s rest

/-- A command is lost while busy, refused, without its configuration, run beside the engine, or it starts an exchange (R110). -/
theorem issueCommand_effect (c : Byte) (run : State → State) (s : State) (rest : List Move)
    (hrun : (cmdOp c = 3 ∧ run = exchangeOf c) ∨ ∀ u, HostKept u (run u)) :
    StepEffect s (issueCommand c run { s with script := rest }) := by
  rcases issueCommand_cases c run { s with script := rest } with ⟨hb, e⟩ | ⟨hb, -, e⟩ | ⟨hn, -, -, e⟩ | ⟨hn, -, e⟩ <;>
    rw [e]
  · exact .commandBusy rest hb
  · exact .host (s := s) hb (by constructor <;> rfl)
  · exact .host (s := s) ((refusalOf_eq_none _ _).1 hn).1 (by constructor <;> rfl)
  obtain ⟨hb, -, -, -, hcount, -⟩ := (refusalOf_eq_none _ _).1 hn
  rcases hrun with ⟨hop, rfl⟩ | k
  · rcases exchangeOf_cases c (accept (takeCommand c { s with script := rest })) with ⟨m, hm, e⟩ | ⟨-, e⟩ <;> rw [e]
    · exact .exchange c m rest hb hm (hcount hop)
    · exact .host (s := s) hb (by constructor <;> rfl)
  · have accepted : HostKept s (accept (takeCommand c { s with script := rest })) := by constructor <;> rfl
    exact .host (s := s) hb (accepted.trans (k _))

/-- Every step has one of the effects. -/
theorem step_effect {s t : State} (h : step s = .next t) : StepEffect s t := by
  by_cases hr : s.resetHeld = true
  · rcases step_cases_reset hr h with ⟨hs, rfl⟩ | ⟨a, rest, hs, rfl⟩ | ⟨c, rest, -, rfl⟩
    · exact .clock s.script (.inl ⟨hs, hs⟩)
    · exact actWhileReset_effect a s rest hs
    · exact .lost s rest
  have hr : s.resetHeld = false := by simpa using hr
  rcases step_cases hr h with
    ⟨-, he⟩ | ⟨hs, -, rfl⟩ | ⟨a, rest, hs, rfl⟩ | ⟨c, rest, i, -, -, rfl⟩ | ⟨c, rest, _, -, -, rfl⟩
  · exact .engine s.script hr (engineStep_row he)
  · exact .clock s.script (.inl ⟨hs, hs⟩)
  · exact applyAct_effect a s rest hs hr
  · exact issueCommand_effect _ _ s rest (operationOf_host i)
  · exact issueCommand_effect c runNothing s rest (.inr HostKept.refl)

end Sys2Proof.Machine
end

section
/-! SUPPORT. The phases of ownership (R45, R204 (a), R260, R283, R285) are an invariant of every effect of a step. -/

namespace Sys2Proof.Machine

/-! ### States without a pending input -/

/-- Away from `OPENING` no answer is pending, and where faults are not looked at none is pending (R261). -/
theorem OwnershipInv.tpAns_none {s : State} (h : OwnershipInv s) (hst : s.st ≠ .opening) : s.tpAns = none := by
  by_contra ha
  exact hst (h.answerPending ha)

theorem OwnershipInv.tpFault_false {s : State} (h : OwnershipInv s) (hst : s.st.faultVisible = false) :
    s.tpFault = false := by
  by_contra hf
  simp [h.faultPending (by simpa using hf)] at hst

theorem OwnershipInv.ctlLine_false {s : State} (h : OwnershipInv s) (hst : s.st ≠ .ctl) (hst' : s.st ≠ .failed) :
    s.ctlLine = false := by
  by_contra hc
  rcases h.controlIdle (by simpa using hc) with h | h
  · exact hst h
  · exact hst' h

/-- While host-owned the transport is idle too. -/
theorem OwnershipInv.idleLines {s : State} (h : OwnershipInv s) (hb : s.busy = false) :
    s.owned = false ∧ s.tpReq = false ∧ s.ctlLine = false ∧ s.tpAns = none ∧ s.tpFault = false := by
  rcases h.idle_or_closed hb with hst | hst
  · exact ⟨h.notOwned (.inl hst), by rw [h.requestIff, hst]; rfl, h.ctlLine_false (by simp [hst]) (by simp [hst]),
      h.tpAns_none (by simp [hst]), h.tpFault_false (by rw [hst]; rfl)⟩
  · exact ⟨h.notOwned (.inr (.inr hst)), by rw [h.requestIff, hst]; rfl, h.ctlLine_false (by simp [hst]) (by simp [hst]),
      h.tpAns_none (by simp [hst]), h.tpFault_false (by rw [hst]; rfl)⟩

/-! ### The rows of the engine -/

theorem ExchangeRuns.owned_states {s t : State} (r : ExchangeRuns s t) :
    s.st.engineOwned = true ∧ t.st.engineOwned = true := by
  constructor
  · rcases r.source with h | h
    · rw [h]; rfl
    · exact EngState.engineOwned_of_faultVisible h
  · rcases r.dest with ⟨h, -⟩ | ⟨h | h, -⟩
    · rw [h]; rfl
    · exact EngState.engineOwned_of_faultVisible h
    · rw [h]; rfl

theorem ExchangeRuns.ne_opening {s t : State} (r : ExchangeRuns s t) : t.st ≠ .opening := by
  rcases r.dest with ⟨h, -⟩ | ⟨h | h, -⟩
  · simp [h]
  · exact EngState.ne_opening_of_faultVisible h
  · simp [h]

theorem OwnershipInv.of_runs {s t : State} (h : OwnershipInv s) (r : ExchangeRuns s t) : OwnershipInv t := by
  obtain ⟨hs, ht⟩ := r.owned_states
  have hb : s.busy = true := h.busy_of_owned hs
  have answered : t.tpAns = none := by
    rcases r.tpAns with ha | ⟨ho, ha⟩
    · exact ha
    · rw [ha, h.tpAns_none ho]
  have unfaulted : t.tpFault = false := by
    by_contra hf
    obtain ⟨ho, hf⟩ := r.tpFault (by simpa using hf)
    simp [h.tpFault_false (by rw [ho]; rfl)] at hf
  constructor
  · rw [r.kept.busy, hb, ht]
  · rw [r.kept.tpReq, h.requestIff, hs, ht]
  · intro hd
    rw [r.kept.done] at hd
    simp [h.doneIdle hd] at hb
  · intro hst
    refine r.owned (by rintro e; simp [e, EngState.faultVisible] at hst) ?_
    exact r.source.imp_right (fun hv => h.ownedWhileUsed (.inl hv))
  · rintro (e | e | e)
    · simp [e, EngState.engineOwned] at ht
    · exact absurd e r.ne_opening
    · simp [e, EngState.engineOwned] at ht
  · exact fun ha => absurd answered ha
  · exact fun hf => by simp [unfaulted] at hf
  · intro hc
    rcases r.ctlLine with ⟨-, hst, -⟩ | ⟨hst, -, e⟩ | ⟨-, hst, e⟩
    · exact .inl hst
    · simp [e, h.controlPulse hst] at hc
    · rcases h.controlIdle (e ▸ hc) with hst' | hst'
      · exact .inr (hst hst')
      · rcases r.source with ho | ho <;> simp [hst', EngState.faultVisible] at ho
  · intro hst
    rcases r.ctlLine with ⟨hp, -, e⟩ | ⟨-, hst', -⟩ | ⟨hst', -⟩
    · rw [e, h.ctlLine_false (by simp [hp]) (by simp [hp])]; rfl
    · simp [hst'] at hst
    · exact absurd hst hst'

theorem OwnershipInv.afterFailure {s : State} (h : OwnershipInv s) (hst : s.st = .failed) :
    OwnershipInv (afterFailure s) := by
  have hb : s.busy = true := h.busy_of_owned (by rw [hst]; rfl)
  have hd : s.done = false := by
    by_contra hd
    simp [h.doneIdle (by simpa using hd)] at hb
  have ha := h.tpAns_none (by simp [hst])
  have hf := h.tpFault_false (by rw [hst]; rfl)
  rcases afterFailure_cases s with ⟨-, e⟩ | ⟨-, e⟩ <;> rw [e] <;> constructor <;>
    simp [hb, hd, ha, hf, EngState.engineOwned, EngState.faultVisible]

theorem OwnershipInv.writeOutcome {s : State} (h : OwnershipInv s) (hst : s.st = .release) (ok : Bool) (k : ErrKind)
    (c : SuccKind) (u : State) (hu : (u.owned, u.tpReq, u.ctlLine, u.tpAns, u.tpFault) =
      (false, false, s.ctlLine, s.tpAns, s.tpFault)) : OwnershipInv (writeOutcome ok k c u) := by
  simp only [Prod.mk.injEq] at hu
  have hc := h.ctlLine_false (by simp [hst]) (by simp [hst])
  have ha := h.tpAns_none (by simp [hst])
  have hf := h.tpFault_false (by rw [hst]; rfl)
  constructor <;> simp [hu, hc, ha, hf, EngState.engineOwned, EngState.faultVisible]

theorem engineRow_keeps_ownershipInv {s t : State} (h : OwnershipInv s) (row : EngineRow s t) : OwnershipInv t := by
  rcases engineRow_cases row with r | ⟨hst, rfl⟩ | ⟨hst, rfl⟩
  · exact h.of_runs r
  · exact h.afterFailure hst
  · rcases finishSuccess_cases s with ⟨-, e⟩ | ⟨-, e⟩ <;> rw [e] <;> exact h.writeOutcome hst _ _ _ _ rfl

/-! ### A step -/

theorem OwnershipInv.startExchange {s : State} (h : OwnershipInv s) (hb : s.busy = false) (c : Byte) (m : ChecksumMode) :
    OwnershipInv (startExchange c m (accept (takeCommand c s))) := by
  obtain ⟨ho, -, hc, ha, hf⟩ := h.idleLines hb
  constructor <;> simp [ho, hc, ha, hf, EngState.engineOwned, EngState.faultVisible]

/-- The flag `DONE` may change, and nothing else of the block, while it is host-owned. -/
theorem OwnershipInv.of_hostKept {s t : State} (h : OwnershipInv s) (hb : s.busy = false) (k : HostKept s t) :
    OwnershipInv t := by
  obtain ⟨ho, hr, hc, ha, hf⟩ := h.idleLines hb
  constructor <;> simp only [k.st, k.busy, k.owned, k.tpReq, k.ctlLine, k.tpAns, k.tpFault]
  exacts [h.busyIff, h.requestIff, fun _ => hb, h.ownedWhileUsed, h.notOwned, h.answerPending, h.faultPending,
    h.controlIdle, h.controlPulse]

theorem step_keeps_ownershipInv {s t : State} (h : OwnershipInv s) (hs : step s = .next t) : OwnershipInv t := by
  cases step_effect hs with
  | engine rest hr row =>
    exact engineRow_keeps_ownershipInv (s := { s with script := rest, txValid := false }) (h.of_eq rfl) row
  | clock | outside | commandBusy => exact h.of_eq rfl
  | pushed b rest =>
    rcases rxPush_cases b { s with script := rest } with ⟨-, e⟩ | ⟨-, e⟩ <;> rw [e] <;> exact h.of_eq rfl
  | answered a rest hst => exact { h with answerPending := fun _ => hst }
  | faulted rest hst => exact { h with faultPending := fun _ => hst }
  | host hb k => exact h.of_hostKept hb k
  | exchange c m rest hb => exact (h.of_eq (t := { s with script := rest }) rfl).startExchange hb c m
  | reset rest => constructor <;> simp [assertReset, State.reset, EngState.engineOwned, EngState.faultVisible]

/-- Settles O47: the transport's lines and inputs move only as the engine's states do (`ExchangeRuns`), and the host's commands
find them idle. -/
theorem ownershipFollowsEngineState : Obligations.OwnershipFollowsEngineState :=
  fun _ _ h hs => step_keeps_ownershipInv h hs

end Sys2Proof.Machine
end

section
/-! SUPPORT. What the engine leaves alone (R32, R205): the descriptor, the latched copies, the frame, the configuration, the
results of the codec, and the inputs that are not its own. -/

namespace Sys2Proof.Machine

/-- The state with only the registers that no row of R203 writes, all others being at their reset values. -/
def State.operands (s : State) : State :=
  { State.reset with
    cmd := s.cmd
    payload := s.payload
    plen := s.plen
    expbytes := s.expbytes
    rdto := s.rdto
    cp := s.cp
    vpfx := s.vpfx
    vplen := s.vplen
    vpfxen := s.vpfxen
    vsub := s.vsub
    vslen := s.vslen
    vsuben := s.vsuben
    cfg := s.cfg
    l := s.l
    natt := s.natt
    t0 := s.t0
    frame := s.frame
    flen := s.flen
    ck := s.ck
    derr := s.derr
    vres := s.vres
    cmderr := s.cmderr
    cfgmiss := s.cfgmiss
    now := s.now
    txReady := s.txReady
    resetHeld := s.resetHeld
    rxStream := s.rxStream
    script := s.script
    rdata := s.rdata
    freeCtr := s.freeCtr
    epoch := s.epoch }

theorem takeResponse_keeps_operands (stop : State → Bool) (b : Byte) (s : State) :
    (takeResponse stop b s).operands = s.operands := by
  rcases takeResponse_cases stop b s with ⟨-, e⟩ | ⟨-, e⟩ | ⟨-, e⟩ <;> rw [e] <;> simp [State.operands]

theorem engineRow_keeps_operands {s t : State} (row : EngineRow s t) : t.operands = s.operands := by
  cases row with
  | txDone =>
    rcases afterTransmission_cases (emit (.txDone s.flen) s) with ⟨-, e⟩ | ⟨-, -, e⟩ | ⟨-, -, e⟩ <;> rw [e] <;>
      simp [State.operands]
  | handshake b rest =>
    rcases takeHandshake_cases b { s with rxq := rest } with ⟨-, e⟩ | ⟨-, -, e⟩ | ⟨-, -, e⟩ <;> rw [e]
    · simp [State.operands]
    · simp [State.operands]
    · rcases append_cases b (fun s => enterRead (emit (.ackFallthrough b) s)) { s with rxq := rest } with
        ⟨-, e⟩ | ⟨-, e⟩ <;> rw [e] <;> simp [State.operands]
  | countByte b rest | delimByte b rest | burstByte b rest => exact takeResponse_keeps_operands _ b { s with rxq := rest }
  | delimTimeout => rcases delimDeadline_cases s with ⟨-, e⟩ | ⟨-, e⟩ <;> rw [e] <;> simp [State.operands]
  | failed => rcases afterFailure_cases s with ⟨-, e⟩ | ⟨-, e⟩ <;> rw [e] <;> simp [State.operands]
  | release => rcases finishSuccess_cases s with ⟨-, e⟩ | ⟨-, e⟩ <;> rw [e] <;> simp [State.operands]
  | openGranted | openFailed | fault | overrun | purge | ctl | settle | txByte | txTimeout | ackTimeout
  | countTimeout | burstEnd | burstQuiet | quietStop | quietLoop => simp [State.operands]

section
variable {s t : State} (row : EngineRow s t)
include row

/-- A register among the operands reads the same after a row. -/
theorem engineRow_operand {α : Type} (f : State → α) : f t.operands = f s.operands :=
  congrArg f (engineRow_keeps_operands row)

theorem engineRow_l : t.l = s.l := engineRow_operand row State.l

theorem engineRow_natt : t.natt = s.natt := engineRow_operand row State.natt

theorem engineRow_now : t.now = s.now := engineRow_operand row State.now

theorem engineRow_rxStream : t.rxStream = s.rxStream := engineRow_operand row State.rxStream

end

/-- Settles O54: each of these registers is one of the operands, which every row keeps. -/
theorem engineLeavesOperands : Obligations.EngineLeavesOperands := by
  intro s t h
  have field {α : Type} (f : State → α) : f t.operands = f s.operands := engineRow_operand (engineStep_row h) f
  exact ⟨field State.cmd, field State.payload, field State.plen, field State.expbytes, field State.rdto, field State.cp,
    field State.vpfx, field State.vplen, field State.vpfxen, field State.vsub, field State.vslen, field State.vsuben,
    field State.frame, field State.flen, field State.l, field State.cfg, field State.natt, field State.t0, field State.now,
    field State.ck, field State.derr, field State.vres, field State.cmderr, field State.cfgmiss⟩

/-! ### Time and the log (R48, R60) -/

/-- The engine only adds to the log. -/
theorem engineRow_log {s t : State} (row : EngineRow s t) : s.evt <+: t.evt := by
  rcases engineRow_cases row with r | ⟨-, rfl⟩ | ⟨-, rfl⟩
  · exact r.kept.log
  · rcases afterFailure_cases s with ⟨-, e⟩ | ⟨-, e⟩ <;> rw [e] <;> simp
  · rcases finishSuccess_cases s with ⟨-, e⟩ | ⟨-, e⟩ <;> rw [e] <;> simp

theorem rxPush_now_evt (b : Byte) (s : State) : (rxPush b s).now = s.now ∧ (rxPush b s).evt = s.evt := by
  rcases rxPush_cases b s with ⟨-, e⟩ | ⟨-, e⟩ <;> rw [e] <;> exact ⟨rfl, rfl⟩

/-- Settles O56: of the effects of a step only the clock's moves the time, and only reset empties the log. -/
theorem clockAndLog : Obligations.ClockAndLog := by
  intro s t h
  cases step_effect h with
  | engine rest hr row =>
    have hnow := engineRow_now row
    have hlog := engineRow_log row
    exact ⟨.inl hnow, fun _ => hlog⟩
  | clock rest hs =>
    exact ⟨.inr ⟨rfl, rfl, hs.imp And.left (fun hs => ⟨rest, hs⟩)⟩, fun _ => List.prefix_rfl⟩
  | outside | answered | faulted | commandBusy => exact ⟨.inl rfl, fun _ => List.prefix_rfl⟩
  | pushed b rest =>
    obtain ⟨hnow, hevt⟩ := rxPush_now_evt b { s with script := rest }
    exact ⟨.inl hnow, fun _ => by rw [hevt]⟩
  | host hb k => exact ⟨.inl k.now, fun _ => by rw [k.evt]⟩
  | exchange => exact ⟨.inl (by simp), fun _ => by simp⟩
  | reset rest hs => exact ⟨.inl rfl, fun hn => absurd hs (hn rest)⟩

end Sys2Proof.Machine
end

section
/-! SUPPORT. The counters and latched copies of a running exchange (`EngineInv`): what holds of the whole exchange (the budget and the
legal descriptor) apart from what the engine state asks of the trace, the frame index and the mode of reading. -/

namespace Sys2Proof.Machine

/-! ### The invariant in two parts -/

/-- What the acceptance of the exchange fixes (R110, R163), with the attempt within the budget (R36). -/
structure BudgetFits (s : State) : Prop where
  attemptRange : s.busy = true → 1 ≤ s.attempt.toNat ∧ s.attempt.toNat ≤ s.natt.toNat
  budget : s.busy = true → s.natt.toNat = max 1 s.l.cp.retries.toNat
  countLegal : s.busy = true → s.l.expbytes.toNat ≤ tmax
  modeLegal : s.busy = true → s.l.csm ≠ 3

/-- What the engine state asks of the trace length, the frame index and the latched mode (R38, R168, R176, R186). -/
def phaseFits (s : State) : Prop :=
  match s.st with
  | .idle | .closed | .failed => True
  | .opening | .purge | .ctl | .settle => s.tlen = 0
  | .tx => s.tlen = 0 ∧ s.txi ≤ s.flen
  | .ackwait => s.tlen = 0 ∧ s.l.ack = true
  | .rdCount => s.tlen < s.l.expbytes.toNat
  | .rdDelim => s.l.ack = true ∧ s.l.wrap = true ∧ s.l.expbytes = 0
  | .rdBurst | .rdQuiet => s.l.ack = true ∧ s.l.wrap = false ∧ s.l.expbytes = 0
  | .release => (s.l.expbytes ≠ 0 → s.tlen = s.l.expbytes.toNat) ∧ (s.l.ack = false → s.l.expbytes = 0 → s.tlen = 0)

theorem engineInv_iff (s : State) : EngineInv s ↔ BudgetFits s ∧ phaseFits s := by
  constructor
  · intro h
    refine ⟨⟨h.attemptRange, h.budget, h.countLegal, h.modeLegal⟩, ?_⟩
    have empty := h.traceEmpty
    unfold phaseFits
    cases hst : s.st <;> simp only [hst] at empty ⊢
    case opening | purge | ctl | settle => exact empty rfl
    case tx => exact ⟨empty rfl, h.txIndex hst⟩
    case ackwait => exact ⟨empty rfl, h.handshake hst⟩
    case rdCount => exact h.counting hst
    case rdDelim => exact h.seeking hst
    case rdBurst => exact h.bursting (.inl hst)
    case rdQuiet => exact h.bursting (.inr hst)
    case release => exact ⟨h.counted hst, h.silent hst⟩
  · rintro ⟨b, p⟩
    unfold phaseFits at p
    refine ⟨b.attemptRange, b.budget, b.countLegal, b.modeLegal, ?_, ?_, ?_, ?_, ?_, ?_, ?_, ?_⟩
    · intro hst; rw [hst] at p; exact p.2
    · intro hst
      cases h : s.st <;> simp only [h, EngState.beforeResponse, Bool.false_eq_true] at hst p
      case opening | purge | ctl | settle => exact p
      case tx | ackwait => exact p.1
    · intro hst; rw [hst] at p; exact p.2
    · intro hst; rw [hst] at p; exact p
    · intro hst; rw [hst] at p; exact p
    · rintro (hst | hst) <;> rw [hst] at p <;> exact p
    · intro hst; rw [hst] at p; exact p.1
    · intro hst; rw [hst] at p; exact p.2

/-- While host-owned the invariant asks nothing. -/
theorem EngineInv.of_free {s : State} (ho : OwnershipInv s) (hb : s.busy = false) : EngineInv s := by
  refine (engineInv_iff s).2 ⟨⟨?_, ?_, ?_, ?_⟩, ?_⟩
  iterate 4 · intro h; simp [hb] at h
  · unfold phaseFits
    rcases ho.idle_or_closed hb with hst | hst <;> rw [hst] <;> trivial

theorem EngineInv.of_eq {s t : State} (h : EngineInv s)
    (k : (t.st, t.busy, t.attempt, t.natt, t.l, t.txi, t.flen, t.tlen) =
      (s.st, s.busy, s.attempt, s.natt, s.l, s.txi, s.flen, s.tlen)) : EngineInv t := by
  simp only [Prod.mk.injEq] at k
  obtain ⟨st, busy, attempt, natt, l, txi, flen, tlen⟩ := k
  obtain ⟨b, p⟩ := (engineInv_iff s).1 h
  refine (engineInv_iff t).2 ⟨⟨?_, ?_, ?_, ?_⟩, ?_⟩
  · rw [busy, attempt, natt]; exact b.attemptRange
  · rw [busy, natt, l]; exact b.budget
  · rw [busy, l]; exact b.countLegal
  · rw [busy, l]; exact b.modeLegal
  · simpa only [phaseFits, st, l, txi, flen, tlen] using p

/-! ### The budget -/

theorem BudgetFits.of_runs {s t : State} (h : BudgetFits s) (r : ExchangeRuns s t) (row : EngineRow s t) : BudgetFits t where
  attemptRange := by rw [r.kept.busy, r.kept.attempt, engineRow_natt row]; exact h.attemptRange
  budget := by rw [r.kept.busy, engineRow_natt row, engineRow_l row]; exact h.budget
  countLegal := by rw [r.kept.busy, engineRow_l row]; exact h.countLegal
  modeLegal := by rw [r.kept.busy, engineRow_l row]; exact h.modeLegal

/-- The next attempt is still within the budget, for R271 starts it only below the budget. -/
theorem BudgetFits.afterFailure {s : State} (h : BudgetFits s) : BudgetFits (afterFailure s) := by
  rcases afterFailure_cases s with ⟨hlt, e⟩ | ⟨-, e⟩ <;> rw [e]
  · refine ⟨fun hb => ?_, h.budget, h.countLegal, h.modeLegal⟩
    have := h.attemptRange hb
    show 1 ≤ (s.attempt + 1).toNat ∧ (s.attempt + 1).toNat ≤ s.natt.toNat
    bv_omega
  · constructor <;> simp

theorem BudgetFits.finishSuccess (s : State) : BudgetFits (finishSuccess s) := by
  rcases finishSuccess_cases s with ⟨-, e⟩ | ⟨-, e⟩ <;> rw [e] <;> constructor <;> simp

theorem engineRow_keeps_budgetFits {s t : State} (h : BudgetFits s) (row : EngineRow s t) : BudgetFits t := by
  rcases engineRow_cases row with r | ⟨-, rfl⟩ | ⟨-, rfl⟩
  · exact h.of_runs r row
  · exact h.afterFailure
  · exact .finishSuccess s

/-! ### The phases -/

/-- The read phase starts with fewer bytes than the count, or after a handshake if there is none (R176, R186). -/
theorem phaseFits_enterRead {s : State} (hcount : s.l.expbytes ≠ 0 → s.tlen ≤ s.l.expbytes.toNat)
    (hack : s.l.expbytes = 0 → s.l.ack = true) : phaseFits (enterRead s) := by
  unfold phaseFits
  rcases readEntryState_cases s with ⟨hn, hl, e⟩ | ⟨hn, hl, e⟩ | ⟨hz, -, -, -, e⟩ | ⟨hz, hw, -, e⟩ | ⟨hz, hw, e⟩ <;>
    simp only [enterRead_st, e, enterRead_l, enterRead_tlen]
  · exact ⟨fun _ => hl, fun _ hz => absurd hz hn⟩
  · exact lt_of_le_of_ne (hcount hn) hl
  · exact ⟨fun hn => absurd hz hn, fun hna => by simp [hack hz] at hna⟩
  · exact ⟨hack hz, hw, hz⟩
  · exact ⟨hack hz, hw, hz⟩

/-- A read without a count may end at any length, since the handshake has been waited for. -/
theorem phaseFits_succeed {s : State} (hz : s.l.expbytes = 0) (ha : s.l.ack = true) : phaseFits (succeed s) :=
  ⟨fun hn => absurd hz hn, fun hna => by simp [ha] at hna⟩

theorem phaseFits_afterTransmission {s : State} (h : s.tlen = 0) : phaseFits (afterTransmission s) := by
  rcases afterTransmission_cases s with ⟨ha, e⟩ | ⟨-, hz, e⟩ | ⟨-, hn, e⟩ <;> rw [e]
  · exact ⟨h, ha⟩
  · exact ⟨fun hn => absurd hz hn, fun _ _ => h⟩
  · exact phaseFits_enterRead (fun _ => by simp [h]) (fun hz => absurd hz hn)

theorem phaseFits_takeHandshake {s : State} (b : Byte) (h : s.tlen = 0) (ha : s.l.ack = true) :
    phaseFits (takeHandshake b s) := by
  rcases takeHandshake_cases b s with ⟨-, e⟩ | ⟨-, -, e⟩ | ⟨-, -, e⟩ <;> rw [e]
  · trivial
  · exact phaseFits_enterRead (fun _ => by simp [h]) (fun _ => ha)
  · rcases append_cases b (fun s => enterRead (emit (.ackFallthrough b) s)) s with ⟨-, e⟩ | ⟨-, e⟩ <;> rw [e]
    · trivial
    · refine phaseFits_enterRead (fun hn => ?_) (fun _ => ha)
      have hn : s.l.expbytes ≠ 0 := hn
      show s.tlen + 1 ≤ s.l.expbytes.toNat
      bv_omega

/-- A response byte keeps the read going or ends it with what the mode asks for. -/
theorem phaseFits_takeResponse {s : State} (stop : State → Bool) (b : Byte)
    (hstop : stop { s with trace := store s.trace s.tlen b, tlen := s.tlen + 1 } = true →
      phaseFits (succeed { s with tlen := s.tlen + 1 }))
    (hgo : stop { s with trace := store s.trace s.tlen b, tlen := s.tlen + 1 } = false →
      phaseFits { s with tlen := s.tlen + 1 }) : phaseFits (takeResponse stop b s) := by
  rcases takeResponse_cases stop b s with ⟨-, e⟩ | ⟨h, e⟩ | ⟨h, e⟩ <;> rw [e]
  · trivial
  · exact hstop h
  · exact hgo h

theorem engineRow_keeps_phaseFits {s t : State} (h : EngineInv s) (row : EngineRow s t) : phaseFits t := by
  cases row with
  | openGranted hst => exact h.traceEmpty (by rw [hst]; rfl)
  | openFailed | fault | overrun | txTimeout | ackTimeout | countTimeout => trivial
  | purge => rfl
  | ctl hst => exact h.traceEmpty (by rw [hst]; rfl)
  | settle hst => exact ⟨h.traceEmpty (by rw [hst]; rfl), Nat.zero_le _⟩
  | txDone hst => exact phaseFits_afterTransmission (h.traceEmpty (by rw [hst]; rfl))
  | txByte hst _ hi =>
    have : phaseFits { s with txi := s.txi + 1 } := by
      simpa only [phaseFits, hst] using ⟨h.traceEmpty (by rw [hst]; rfl), hi⟩
    exact this
  | handshake b rest hst =>
    exact phaseFits_takeHandshake (s := { s with rxq := rest }) b (h.traceEmpty (by rw [hst]; rfl)) (h.handshake hst)
  | countByte b rest hst =>
    have hlt := h.counting hst
    refine phaseFits_takeResponse (s := { s with rxq := rest }) _ b (fun hs => ?_) (fun hs => ?_)
    · have hs : s.tlen + 1 = s.l.expbytes.toNat := by simpa using hs
      have hn : s.l.expbytes ≠ 0 := fun hz => by simp [hz] at hlt
      exact ⟨fun _ => hs, fun _ hz => absurd hz hn⟩
    · have hs : s.tlen + 1 ≠ s.l.expbytes.toNat := by simpa using hs
      simp only [phaseFits, hst]
      omega
  | delimByte b rest hst =>
    obtain ⟨ha, hw, hz⟩ := h.seeking hst
    refine phaseFits_takeResponse (s := { s with rxq := rest }) _ b (fun _ => phaseFits_succeed hz ha) (fun _ => ?_)
    simpa only [phaseFits, hst] using ⟨ha, hw, hz⟩
  | delimTimeout hst =>
    obtain ⟨ha, -, hz⟩ := h.seeking hst
    rcases delimDeadline_cases s with ⟨-, e⟩ | ⟨-, e⟩ <;> rw [e]
    · trivial
    · exact phaseFits_succeed hz ha
  | burstByte b rest hst =>
    refine phaseFits_takeResponse (s := { s with rxq := rest }) _ b (fun hs => by cases hs) (fun _ => ?_)
    simpa only [phaseFits, hst] using h.bursting (.inl hst)
  | burstEnd hst =>
    obtain ⟨ha, -, hz⟩ := h.bursting (.inl hst)
    exact phaseFits_succeed hz ha
  | burstQuiet hst => exact h.bursting (.inl hst)
  | quietStop hst =>
    obtain ⟨ha, -, hz⟩ := h.bursting (.inr hst)
    exact phaseFits_succeed hz ha
  | quietLoop hst => exact h.bursting (.inr hst)
  | failed => rcases afterFailure_cases s with ⟨-, e⟩ | ⟨-, e⟩ <;> rw [e] <;> trivial
  | release => rcases finishSuccess_cases s with ⟨-, e⟩ | ⟨-, e⟩ <;> rw [e] <;> trivial

/-! ### A step -/

theorem engineRow_keeps_engineInv {s t : State} (h : EngineInv s) (row : EngineRow s t) : EngineInv t :=
  (engineInv_iff t).2 ⟨engineRow_keeps_budgetFits ((engineInv_iff s).1 h).1 row, engineRow_keeps_phaseFits h row⟩

theorem toNat_attemptsAllowed (retries : BitVec 8) : (attemptsAllowed retries).toNat = max 1 retries.toNat := by
  revert retries; decide

/-- An accepted exchange latches a legal descriptor and starts with attempt 1 (R110, R162, R163). -/
theorem engineInv_startExchange (s : State) (c : Byte) (m : ChecksumMode) (hm : modeOfCsm (cmdCsm c) = some m)
    (hn : s.expbytes.toNat ≤ tmax) : EngineInv (startExchange c m s) := by
  have hcsm : cmdCsm c ≠ 3 := fun h3 => by simp [(modeOfCsm_eq_none _).2 h3] at hm
  refine (engineInv_iff _).2 ⟨⟨fun _ => ?_, fun _ => ?_, fun _ => ?_, fun _ => ?_⟩, ?_⟩
  · simp [toNat_attemptsAllowed]
  · simp [toNat_attemptsAllowed, latchDescriptor]
  · simpa [latchDescriptor] using hn
  · simpa [latchDescriptor] using hcsm
  · simp [phaseFits]

theorem step_keeps_engineInv {s t : State} (ho : OwnershipInv s) (h : EngineInv s) (hs : step s = .next t) :
    EngineInv t := by
  have ho' := step_keeps_ownershipInv ho hs
  cases step_effect hs with
  | engine rest hr row =>
    exact engineRow_keeps_engineInv (s := { s with script := rest, txValid := false }) (h.of_eq rfl) row
  | clock | outside | answered | faulted | commandBusy => exact h.of_eq rfl
  | pushed b rest =>
    rcases rxPush_cases b { s with script := rest } with ⟨-, e⟩ | ⟨-, e⟩ <;> rw [e] <;> exact h.of_eq rfl
  | host hb k => exact .of_free ho' (k.busy.trans hb)
  | exchange c m rest hb hm hn => exact engineInv_startExchange _ c m hm hn
  | reset => exact .of_free ho' rfl

/-- Settles O48: the budget is kept by every row and the phase follows from the row; while host-owned nothing is asked. -/
theorem engineCountersStayConsistent : Obligations.EngineCountersStayConsistent :=
  fun _ _ ho h hs => step_keeps_engineInv ho h hs

end Sys2Proof.Machine
end

section
/-! SUPPORT. The order of the bytes on the two streams (R72, R73): what the block holds of the receive stream is a subsequence of it, and
in `TX` the transmit stream ends with the part of the frame that has been sent. -/

namespace Sys2Proof.Machine

/-! ### Received bytes -/

/-- What the block holds of the response: the trace, then the queue (R73). -/
def heldBytes (s : State) : List Byte := traceBytes s ++ s.rxq

theorem receivedInOrder_iff (s : State) :
    receivedInOrder s ↔ s.rxq.Sublist s.rxStream ∧ (s.busy = true → (heldBytes s).Sublist s.rxStream) := Iff.rfl

theorem traceBytes_congr {s t : State} (h : (t.trace, t.tlen, t.epoch) = (s.trace, s.tlen, s.epoch)) :
    traceBytes t = traceBytes s := by
  simp only [Prod.mk.injEq] at h
  obtain ⟨trace, tlen, epoch⟩ := h
  unfold traceBytes
  rw [tlen]
  exact bytesOf_congr fun i _ => readCell_congr epoch (by rw [State.buf, State.buf, trace])

theorem traceBytes_of_empty {s : State} (h : s.tlen = 0) : traceBytes s = [] := by
  rw [traceBytes, h, bytesOf_zero]

/-- Bytes leave the queue and the trace, or pass from one to the other, in order. -/
structure BytesDrop (s t : State) : Prop where
  queue : t.rxq.Sublist s.rxq
  held : (heldBytes t).Sublist (heldBytes s)

theorem BytesDrop.trans {s t u : State} (h : BytesDrop s t) (k : BytesDrop t u) : BytesDrop s u :=
  ⟨k.queue.trans h.queue, k.held.trans h.held⟩

theorem BytesDrop.of_eq {s t : State} (h : (t.trace, t.tlen, t.epoch, t.rxq) = (s.trace, s.tlen, s.epoch, s.rxq)) :
    BytesDrop s t := by
  simp only [Prod.mk.injEq] at h
  obtain ⟨trace, tlen, epoch, rxq⟩ := h
  have htrace : traceBytes t = traceBytes s := traceBytes_congr (by rw [trace, tlen, epoch])
  exact ⟨by rw [rxq], by rw [heldBytes, heldBytes, rxq, htrace]⟩

/-- The trace is emptied, and the queue perhaps with it. -/
theorem BytesDrop.of_empty {s t : State} (h : t.tlen = 0) (hq : t.rxq.Sublist s.rxq) : BytesDrop s t := by
  refine ⟨hq, ?_⟩
  rw [heldBytes, traceBytes_of_empty h]
  exact hq.trans (List.sublist_append_right _ _)

/-- The queue is emptied and the trace stands (R192). -/
theorem BytesDrop.of_purge {s t : State} (h : (t.trace, t.tlen, t.epoch) = (s.trace, s.tlen, s.epoch)) (hq : t.rxq = []) :
    BytesDrop s t := by
  refine ⟨by rw [hq]; exact List.nil_sublist _, ?_⟩
  rw [heldBytes, traceBytes_congr h, hq]
  exact List.Sublist.append_left (List.nil_sublist _) _

/-- A popped byte is lost. -/
theorem BytesDrop.of_pop {s : State} {b : Byte} {rest : List Byte} (hq : s.rxq = b :: rest) :
    BytesDrop s { s with rxq := rest } := by
  have hsub : rest.Sublist s.rxq := by rw [hq]; exact List.sublist_cons_self _ _
  have htrace : traceBytes { s with rxq := rest } = traceBytes s := traceBytes_congr rfl
  refine ⟨hsub, ?_⟩
  rw [heldBytes, htrace]
  exact List.Sublist.append_left hsub _

/-- A popped byte passes to the end of the trace (R161). -/
theorem BytesDrop.of_store {s : State} {b : Byte} {rest : List Byte} (hq : s.rxq = b :: rest) :
    BytesDrop s { s with rxq := rest, trace := store s.trace s.tlen b, tlen := s.tlen + 1 } := by
  have htrace : traceBytes { s with rxq := rest, trace := store s.trace s.tlen b, tlen := s.tlen + 1 } =
      traceBytes s ++ [b] := traceBytes_append s _ b rfl rfl rfl
  refine ⟨by rw [hq]; exact List.sublist_cons_self _ _, ?_⟩
  rw [heldBytes, heldBytes, hq, htrace, List.append_assoc]
  rfl

theorem afterTransmission_drops (s : State) : BytesDrop s (afterTransmission s) := by
  rcases afterTransmission_cases s with ⟨-, e⟩ | ⟨-, -, e⟩ | ⟨-, -, e⟩ <;> rw [e] <;> exact .of_eq (by simp)

/-- The first response byte is dropped as a handshake, or kept in the trace as the first of the response (R182, R184). -/
theorem takeHandshake_drops {s : State} {b : Byte} {rest : List Byte} (hq : s.rxq = b :: rest) :
    BytesDrop s (takeHandshake b { s with rxq := rest }) := by
  rcases takeHandshake_cases b { s with rxq := rest } with ⟨-, e⟩ | ⟨-, -, e⟩ | ⟨-, -, e⟩ <;> rw [e]
  · exact (BytesDrop.of_pop hq).trans (.of_eq (by simp))
  · exact (BytesDrop.of_pop hq).trans (.of_eq (by simp))
  · rcases append_cases b (fun s => enterRead (emit (.ackFallthrough b) s)) { s with rxq := rest } with
      ⟨-, e⟩ | ⟨-, e⟩ <;> rw [e]
    · exact (BytesDrop.of_pop hq).trans (.of_eq (by simp))
    · exact (BytesDrop.of_store hq).trans (.of_eq (by simp))

theorem takeResponse_drops {s : State} (stop : State → Bool) {b : Byte} {rest : List Byte} (hq : s.rxq = b :: rest) :
    BytesDrop s (takeResponse stop b { s with rxq := rest }) := by
  rcases takeResponse_cases stop b { s with rxq := rest } with ⟨-, e⟩ | ⟨-, e⟩ | ⟨-, e⟩ <;> rw [e]
  · exact (BytesDrop.of_pop hq).trans (.of_eq (by simp))
  · exact (BytesDrop.of_store hq).trans (.of_eq (by simp))
  · exact (BytesDrop.of_store hq).trans (.of_eq (by simp))

theorem engineRow_drops {s t : State} (row : EngineRow s t) : BytesDrop s t := by
  cases row with
  | purge => exact .of_empty rfl (List.nil_sublist _)
  | txDone => exact (BytesDrop.of_eq (by simp)).trans (afterTransmission_drops (emit (.txDone s.flen) s))
  | handshake b rest _ _ _ hq => exact takeHandshake_drops hq
  | countByte b rest _ _ _ hq | delimByte b rest _ _ _ hq | burstByte b rest _ _ _ hq => exact takeResponse_drops _ hq
  | countTimeout => exact .of_purge (by simp) (by simp)
  | delimTimeout => rcases delimDeadline_cases s with ⟨-, e⟩ | ⟨-, e⟩ <;> rw [e] <;> exact .of_eq (by simp)
  | failed =>
    rcases afterFailure_cases s with ⟨-, e⟩ | ⟨-, e⟩ <;> rw [e]
    · exact .of_empty rfl (by simp)
    · exact .of_eq (by simp)
  | release => rcases finishSuccess_cases s with ⟨-, e⟩ | ⟨-, e⟩ <;> rw [e] <;> exact .of_eq (by simp)
  | openGranted | openFailed | fault | overrun | ctl | settle | txByte | txTimeout | ackTimeout | burstEnd | burstQuiet
  | quietStop | quietLoop => exact .of_eq (by simp)

/-- The engine has a row only while an exchange runs. -/
theorem engineRow_source {s t : State} (row : EngineRow s t) : s.st.engineOwned = true := by
  rcases engineRow_cases row with r | ⟨h, -⟩ | ⟨h, -⟩
  · exact r.owned_states.1
  · rw [h]; rfl
  · rw [h]; rfl

theorem receivedInOrder_of_drop {s t : State} (h : receivedInOrder s) (hb : s.busy = true) (d : BytesDrop s t)
    (hx : t.rxStream = s.rxStream) : receivedInOrder t := by
  rw [receivedInOrder_iff, hx]
  exact ⟨d.queue.trans h.1, fun _ => d.held.trans (h.2 hb)⟩

/-- The stream grows, and the block takes nothing. -/
theorem receivedInOrder_of_stream {s t : State} (h : receivedInOrder s) (hb : t.busy = s.busy)
    (hk : (t.trace, t.tlen, t.epoch) = (s.trace, s.tlen, s.epoch)) (hq : t.rxq = s.rxq) (hx : s.rxStream <+: t.rxStream) :
    receivedInOrder t := by
  rw [receivedInOrder_iff, hb, heldBytes, traceBytes_congr hk, hq]
  exact ⟨h.1.trans hx.sublist, fun hb => (h.2 hb).trans hx.sublist⟩

theorem rxPush_keeps_receivedInOrder {s : State} (h : receivedInOrder s) (b : Byte) : receivedInOrder (rxPush b s) := by
  rcases rxPush_cases b s with ⟨-, e⟩ | ⟨-, e⟩ <;> rw [e]
  · have htrace : traceBytes { s with rxq := s.rxq ++ [b], rxStream := s.rxStream ++ [b] } = traceBytes s :=
      traceBytes_congr rfl
    rw [receivedInOrder_iff, heldBytes, htrace, ← List.append_assoc]
    exact ⟨h.1.append_right [b], fun hb => (h.2 hb).append_right [b]⟩
  · exact receivedInOrder_of_stream h rfl rfl rfl (List.prefix_append _ _)

theorem step_keeps_receivedInOrder {s t : State} (ho : OwnershipInv s) (h : receivedInOrder s) (hs : step s = .next t) :
    receivedInOrder t := by
  cases step_effect hs with
  | engine rest hr row =>
    have hst := engineRow_source row
    have hb : s.busy = true := ho.busy_of_owned hst
    have d := engineRow_drops row
    have hx := engineRow_rxStream row
    exact receivedInOrder_of_drop (s := { s with script := rest, txValid := false })
      (receivedInOrder_of_stream h rfl rfl rfl List.prefix_rfl) hb d hx
  | clock | answered | faulted | commandBusy => exact receivedInOrder_of_stream h rfl rfl rfl List.prefix_rfl
  | outside rest ready level stream data ctr hx => exact receivedInOrder_of_stream h rfl rfl rfl hx
  | pushed b rest =>
    exact rxPush_keeps_receivedInOrder (s := { s with script := rest })
      (receivedInOrder_of_stream h rfl rfl rfl List.prefix_rfl) b
  | host hb k =>
    rw [receivedInOrder_iff, k.rxq, k.rxStream, k.busy, hb]
    exact ⟨h.1, fun hb => by cases hb⟩
  | exchange =>
    rw [receivedInOrder_iff, heldBytes, traceBytes_of_empty (by simp)]
    simpa using h.1
  | reset => exact ⟨List.nil_sublist _, fun hb => by cases hb⟩

/-! ### Sent bytes -/

theorem afterTransmission_st (s : State) : (afterTransmission s).st ≠ .tx := by
  rcases afterTransmission_cases s with ⟨-, e⟩ | ⟨-, -, e⟩ | ⟨-, -, e⟩ <;> rw [e]
  · simp
  · simp
  · rw [enterRead_st]; exact (readEntryState_dest s).2.2

theorem takeHandshake_st (b : Byte) (s : State) : (takeHandshake b s).st ≠ .tx := by
  rcases takeHandshake_cases b s with ⟨-, e⟩ | ⟨-, -, e⟩ | ⟨-, -, e⟩ <;> rw [e]
  · simp
  · rw [enterRead_st]; exact (readEntryState_dest _).2.2
  · rcases append_cases b (fun s => enterRead (emit (.ackFallthrough b) s)) s with ⟨-, e⟩ | ⟨-, e⟩ <;> rw [e]
    · simp
    · rw [enterRead_st]; exact (readEntryState_dest _).2.2

theorem takeResponse_st {s : State} (stop : State → Bool) (b : Byte) (h : s.st ≠ .tx) :
    (takeResponse stop b s).st ≠ .tx := by
  rcases takeResponse_cases stop b s with ⟨-, e⟩ | ⟨-, e⟩ | ⟨-, e⟩ <;> rw [e]
  · simp
  · simp
  · simpa using h

/-- `TX` is entered with nothing sent, or kept by the transmission of the next byte (R170, R171). -/
theorem engineRow_to_tx {s t : State} (row : EngineRow s t) (ht : t.st = .tx) :
    t.txi = 0 ∨ (s.st = .tx ∧ t = transmitByte s) := by
  cases row with
  | settle => exact .inl rfl
  | txByte hst => exact .inr ⟨hst, rfl⟩
  | txDone => exact absurd ht (afterTransmission_st _)
  | handshake b rest => exact absurd ht (takeHandshake_st b _)
  | countByte b rest hst | delimByte b rest hst | burstByte b rest hst =>
    exact absurd ht (takeResponse_st _ b (by simp [hst]))
  | delimTimeout => rcases delimDeadline_cases s with ⟨-, e⟩ | ⟨-, e⟩ <;> simp [e] at ht
  | failed => rcases afterFailure_cases s with ⟨-, e⟩ | ⟨-, e⟩ <;> simp [e] at ht
  | release => rcases finishSuccess_cases s with ⟨-, e⟩ | ⟨-, e⟩ <;> simp [e] at ht
  | openGranted | openFailed | fault | overrun | purge | ctl | txTimeout | ackTimeout | countTimeout | burstEnd
  | burstQuiet | quietStop | quietLoop => simp at ht

theorem sentInOrder_of_eq {s t : State} (h : sentInOrder s)
    (k : (t.st, t.txStream, t.frame, t.txi, t.epoch) = (s.st, s.txStream, s.frame, s.txi, s.epoch)) : sentInOrder t := by
  simp only [Prod.mk.injEq] at k
  obtain ⟨st, txStream, frame, txi, epoch⟩ := k
  have hframe : bytesOf t .frame s.txi = bytesOf s .frame s.txi :=
    bytesOf_congr fun i _ => readCell_congr epoch (by rw [State.buf, State.buf, frame])
  unfold sentInOrder
  rw [st, txStream, txi, hframe]
  exact h

/-- The byte sent is the next of the frame, and the last of the stream (R72, R171). -/
theorem transmitByte_keeps_sentInOrder {s : State} (h : sentInOrder s) (hst : s.st = .tx) : sentInOrder (transmitByte s) := by
  intro _
  obtain ⟨before, hx⟩ := h hst
  have hframe : bytesOf (transmitByte s) .frame s.txi = bytesOf s .frame s.txi :=
    bytesOf_congr fun i _ => readCell_congr (by simp) (by simp [State.buf])
  have hlast : readCell (transmitByte s) .frame s.txi = readCell s .frame s.txi :=
    readCell_congr (by simp) (by simp [State.buf])
  refine ⟨before, ?_⟩
  rw [transmitByte_txi, transmitByte_txStream, bytesOf_succ, hframe, hlast, hx, List.append_assoc]

theorem engineRow_keeps_sentInOrder {s t : State} (h : sentInOrder s) (row : EngineRow s t) : sentInOrder t := by
  intro ht
  rcases engineRow_to_tx row ht with h0 | ⟨hst, rfl⟩
  · exact ⟨t.txStream, by rw [h0, bytesOf_zero, List.append_nil]⟩
  · exact transmitByte_keeps_sentInOrder h hst ht

theorem step_keeps_sentInOrder {s t : State} (ho : OwnershipInv s) (h : sentInOrder s) (hs : step s = .next t) :
    sentInOrder t := by
  cases step_effect hs with
  | engine rest hr row =>
    exact engineRow_keeps_sentInOrder (s := { s with script := rest, txValid := false }) (sentInOrder_of_eq h rfl) row
  | clock | outside | answered | faulted | commandBusy => exact sentInOrder_of_eq h rfl
  | pushed b rest =>
    rcases rxPush_cases b { s with script := rest } with ⟨-, e⟩ | ⟨-, e⟩ <;> rw [e] <;> exact sentInOrder_of_eq h rfl
  | host hb k =>
    intro ht
    rcases ho.idle_or_closed hb with hst | hst <;> simp [k.st, hst] at ht
  | exchange => exact fun ht => by simp at ht
  | reset => exact fun ht => by cases ht

/-- Settles O52: a byte leaves the queue only for the end of the trace or for good, and a sent byte is the frame's next. -/
theorem streamsKeepOrder : Obligations.StreamsKeepOrder :=
  ⟨fun _ _ => step_keeps_receivedInOrder, fun _ _ => step_keeps_sentInOrder⟩

end Sys2Proof.Machine
end

section
/-! SUPPORT. Reset (R61, R300): its values, that they meet the invariants, and that a held reset keeps them. -/

namespace Sys2Proof.Machine

theorem reset_resetValuesHold : resetValuesHold State.reset := by
  unfold resetValuesHold
  refine ⟨rfl, rfl, rfl, rfl, rfl, rfl, rfl, rfl, rfl, fun b => ?_, ?_⟩
  · cases b <;> rfl
  · simp [State.reset, ConnParams.reset]

theorem assertReset_resetValuesHold (s : State) : resetValuesHold (assertReset s) := reset_resetValuesHold

/-- Settles O41: the asserted state is the reset state but for the inputs, the wire, the configuration and the model's own fields. -/
theorem resetValues : Obligations.ResetValues :=
  ⟨reset_resetValuesHold, fun s hr => ⟨assertReset s, by
    rw [turn_eq _ s hr]
    exact congrArg _ (if_pos (by simp [hr])), assertReset_resetValuesHold s, rfl, rfl, rfl⟩⟩

/-- Settles O45: at reset every buffer and the log are empty, and no exchange runs. -/
theorem resetMeetsInvariants : Obligations.ResetMeetsInvariants := by
  refine ⟨⟨?_, ?_, ?_, Nat.zero_le _⟩, ?_, ?_, ?_, rfl, rfl, ⟨List.nil_sublist _, fun h => by cases h⟩,
    fun h => by cases h⟩
  · exact reset_memory_wf
  · intro b c hc; cases b <;> cases hc
  · intro b; cases b <;> exact Nat.zero_le _
  · constructor <;> simp [State.reset, EngState.engineOwned, EngState.faultVisible]
  · constructor <;> simp [State.reset, EngState.beforeResponse]
  · constructor <;> simp [State.reset]

theorem actWhileReset_level (a : Act) (s : State) (hr : s.resetHeld = true) :
    (actWhileReset a s).resetHeld = true ∨ a = .reset false := by
  cases a with
  | reset level =>
    cases level
    · exact .inr rfl
    · exact .inl (by simp [actWhileReset, setReset, hr])
  | hostRead r =>
    left
    show (hostRead r s).resetHeld = true
    rcases hostRead_cases r s with ⟨v, -, e⟩ | ⟨-, e⟩ <;> rw [e] <;> exact hr
  | engine | tick | rxPush | tpAnswer | tpFault | txReady | hostWrite => exact .inl hr

/-- Under a held reset a step keeps the values, and only the release ends it. -/
theorem step_keeps_resetValues {s t : State} (hr : s.resetHeld = true) (h : resetValuesHold s) (hs : step s = .next t) :
    resetValuesHold t ∧ t.cfg = s.cfg ∧ (t.resetHeld = true ∨ ∃ rest, s.script = .act (.reset false) :: rest) := by
  rcases step_cases_reset hr hs with ⟨-, rfl⟩ | ⟨a, rest, hscript, rfl⟩ | ⟨c, rest, -, rfl⟩
  · exact ⟨h, rfl, .inl hr⟩
  · have hlevel := actWhileReset_level a { s with script := rest } hr
    obtain ⟨_, _, _, _, _, _, e⟩ := actWhileReset_cases a { s with script := rest } hr
    refine ⟨by rw [e]; exact h, by rw [e], hlevel.imp_right ?_⟩
    rintro rfl
    exact ⟨rest, hscript⟩
  · exact ⟨h, rfl, .inl hr⟩

theorem turn_release (s : State) : s.turn (.reset false) = .next { s with resetHeld := false } := by
  by_cases hr : s.resetHeld = true
  · exact turn_eq_reset _ s hr
  · exact turn_eq _ s (by simpa using hr)

theorem turn_tick (s : State) : s.turn .tick = .next { s with now := s.now + 1 } := by
  by_cases hr : s.resetHeld = true
  · exact turn_eq_reset _ s hr
  · exact turn_eq _ s (by simpa using hr)

/-- Settles O42: what a move under a held reset changes is not among the reset values, and `IDLE` has no row. -/
theorem heldResetKeepsValues : Obligations.HeldResetKeepsValues := by
  refine ⟨fun _ _ => step_keeps_resetValues, turn_release, turn_tick, fun s h => turn_engine_of_none ?_⟩
  obtain ⟨hst, -⟩ := h
  exact engineRows_of_st (.inl hst)

end Sys2Proof.Machine
end

section
/-! SUPPORT. The accesses of the environment and the host as moves of the script (R43, R62, R77, R283). -/

namespace Sys2Proof.Machine

/-! ### Received bytes -/

/-- Settles O39: the two branches of `rxPush`. -/
theorem pushAppendsOrDrops : Obligations.PushAppendsOrDrops := by
  intro s b hr
  rw [turn_eq _ s hr]
  exact ⟨fun h => congrArg _ (if_pos h), fun h => congrArg _ (if_neg (by omega))⟩

/-! ### Host writes -/

theorem turn_hostWrite_busy {s : State} (hr : s.resetHeld = false) (hb : s.busy = true) (w : HostWrite) :
    s.turn (.hostWrite w) = .next s := by
  rw [turn_eq _ s hr]
  exact congrArg _ (hostWrite_busy w s hb)

theorem turn_hostWrite_free {s : State} (hr : s.resetHeld = false) (hb : s.busy = false) (w : HostWrite) :
    s.turn (.hostWrite w) = .next (performWrite w s) := by
  rw [turn_eq _ s hr]
  exact congrArg _ (hostWrite_free w s hb)

theorem performWrite_cell {b : Buf} {i : Nat} (v : BitVec 32) (s : State) (h : i < b.capacity) :
    performWrite (.cell b i v) s = writeCell b i (mask8 v.toNat) s := if_pos h

theorem performWrite_cell_out {b : Buf} {i : Nat} (v : BitVec 32) (s : State) (h : b.capacity ≤ i) :
    performWrite (.cell b i v) s = { s with cmderr := true } := if_neg (by omega)

theorem performWrite_len {b : Buf} {n : Nat} (s : State) (h : n ≤ b.capacity) :
    performWrite (.len b n) s = s.setLen b n := if_pos h

theorem performWrite_len_out {b : Buf} {n : Nat} (s : State) (h : b.capacity < n) :
    performWrite (.len b n) s = { s with cmderr := true } := if_neg (by omega)

/-- The mask of a written value is its low byte (R22, R131). -/
theorem mask8_toNat (v : BitVec 32) : mask8 v.toNat = v.setWidth 8 := by
  apply BitVec.eq_of_toNat_eq
  simp [mask8]

theorem writeCell_setBuf (b : Buf) (i : Nat) (v : Byte) (s : State) : (writeCell b i v s).setBuf b (s.buf b) = s := by
  cases b <;> rfl

theorem setLen_setLen (b : Buf) (n : Nat) (s : State) : (s.setLen b n).setLen b (s.len b) = s := by
  cases b <;> rfl

/-- Settles O43: a write is lost while busy, and else `performWrite` does what its case says. -/
theorem hostWritesAreBounded : Obligations.HostWritesAreBounded := by
  intro s hr
  refine ⟨fun hb w => turn_hostWrite_busy hr hb w, fun hb b i v hi => ?_, fun hb b i v hi => ?_, fun hb b n hn => ?_,
    fun hb b n hn => ?_, fun hb => ?_⟩
  · refine ⟨_, turn_hostWrite_free hr hb _, ?_⟩
    rw [performWrite_cell v s hi]
    refine ⟨writeCell_setBuf b i _ s, ?_, fun j hj => ?_⟩
    · rw [readCell_writeCell, if_pos ⟨rfl, rfl⟩, mask8_toNat]
      simp
    · rw [readCell_writeCell, if_neg (by simp [hj])]
  · rw [turn_hostWrite_free hr hb, performWrite_cell_out v s hi]
  · refine ⟨_, turn_hostWrite_free hr hb _, ?_⟩
    rw [performWrite_len s hn]
    exact ⟨setLen_setLen b n s, by simp⟩
  · rw [turn_hostWrite_free hr hb, performWrite_len_out s hn]
  · have stored (w : HostWrite) : s.turn (.hostWrite w) = .next (performWrite w s) := turn_hostWrite_free hr hb w
    exact ⟨fun _ => stored _, fun _ => stored _, fun _ => stored _, fun _ => stored _, fun _ => stored _,
      fun _ => stored _, fun _ => stored _, fun _ => stored _, fun _ => stored _, fun _ => stored _,
      fun _ => stored _, fun _ => stored _, fun _ => stored _, fun _ => stored _⟩

/-! ### Host reads -/

/-- A read is taken whether or not reset is held (log 21). -/
theorem turn_hostRead (r : HostReg) (s : State) : s.turn (.hostRead r) = .next (hostRead r s) := by
  by_cases hr : s.resetHeld = true
  · exact turn_eq_reset _ s hr
  · exact turn_eq _ s (by simpa using hr)

theorem hostRead_rdata {r : HostReg} {s : State} {v : Nat} (h : readValue r s = some v) : (hostRead r s).rdata = v := by
  rw [hostRead, h]

theorem hostRead_frame (r : HostReg) (s : State) : { hostRead r s with rdata := s.rdata, freeCtr := s.freeCtr } = s := by
  rcases hostRead_cases r s with ⟨v, -, e⟩ | ⟨-, e⟩ <;> rw [e]

theorem bit_eq_toNat (b : Bool) : bit b = b.toNat := by cases b <;> rfl

theorem readValue_len {b : Buf} {s : State} (h : s.busy = false ∨ (b ≠ .frame ∧ b ≠ .trace)) :
    readValue (.len b) s = some (s.len b) := by
  cases b <;> simp_all [readValue, whenHostOwned, State.len]

theorem readValue_cell {b : Buf} {s : State} {i : Nat} (h : s.busy = false ∨ (b ≠ .frame ∧ b ≠ .trace))
    (hi : i < s.len b) : readValue (.cell b i) s = some (readCell s b i).toNat := by
  have hlen : ¬ s.len b ≤ i := by omega
  cases b <;> simp_all [readValue, readBufferCell, whenHostOwned]

/-- Settles O44: where `readValue` gives a value the host reads it; results and the two engine buffers give one while host-owned. -/
theorem hostReadsAreValid : Obligations.HostReadsAreValid := by
  intro s r
  have always {q : HostReg} {v : Nat} (h : readValue q s = some v) (e : r = q) : (hostRead r s).rdata = v :=
    hostRead_rdata (e ▸ h)
  have flag {q : HostReg} {b : Bool} (h : readValue q s = some (bit b)) (e : r = q) : (hostRead r s).rdata = b.toNat :=
    (always h e).trans (bit_eq_toNat b)
  refine ⟨hostRead r s, turn_hostRead r s, hostRead_frame r s, ?_⟩
  refine ⟨always rfl, always rfl, always rfl, flag rfl, always rfl, always rfl, always rfl, always rfl, always rfl,
    always rfl, always rfl, always rfl, always rfl, flag rfl, flag rfl, always rfl, always rfl, always rfl, always rfl,
    flag rfl, flag rfl, always rfl, always rfl, flag rfl, flag rfl, flag rfl, flag rfl, flag rfl, flag rfl,
    fun hb => ?_, fun b hb => ⟨always (readValue_len hb), fun i e hi => always (readValue_cell hb hi) e⟩⟩
  have owned (v : Nat) : whenHostOwned s v = some v := by simp [whenHostOwned, hb]
  exact ⟨flag (owned _), always (owned _), always (owned _), always (owned _), always (owned _), always (owned _),
    always (owned _), always (owned _), always (owned _), flag (owned _)⟩

end Sys2Proof.Machine
end

section
/-! SUPPORT. The engine never reads the live descriptor (R32, R88): every step function commutes with replacing it. -/

namespace Sys2Proof.Machine

section
variable (d s : State)

theorem append_withDescriptor (b : Byte) (rest : State → State)
    (h : ∀ u, rest (.withDescriptorOf d u) = .withDescriptorOf d (rest u)) :
    append b rest (.withDescriptorOf d s) = .withDescriptorOf d (append b rest s) := by
  unfold append
  rw [apply_ite (State.withDescriptorOf d), ← h]
  rfl

theorem afterTransmission_withDescriptor :
    afterTransmission (.withDescriptorOf d s) = .withDescriptorOf d (afterTransmission s) := by
  unfold afterTransmission
  rw [apply_ite (State.withDescriptorOf d), apply_ite (State.withDescriptorOf d)]
  rfl

theorem takeHandshake_withDescriptor (b : Byte) :
    takeHandshake b (.withDescriptorOf d s) = .withDescriptorOf d (takeHandshake b s) := by
  unfold takeHandshake
  rw [apply_ite (State.withDescriptorOf d), apply_ite (State.withDescriptorOf d),
    append_withDescriptor d s b (fun s => enterRead (emit (.ackFallthrough b) s)) (fun _ => rfl)]
  rfl

theorem takeResponse_withDescriptor (stop : State → Bool) (b : Byte) (h : ∀ u, stop (.withDescriptorOf d u) = stop u) :
    takeResponse stop b (.withDescriptorOf d s) = .withDescriptorOf d (takeResponse stop b s) := by
  refine append_withDescriptor d s b _ (fun u => ?_)
  rw [h, apply_ite (State.withDescriptorOf d)]
  rfl

theorem delimDeadline_withDescriptor :
    delimDeadline (.withDescriptorOf d s) = .withDescriptorOf d (delimDeadline s) := by
  unfold delimDeadline
  rw [apply_ite (State.withDescriptorOf d)]
  rfl

theorem afterFailure_withDescriptor : afterFailure (.withDescriptorOf d s) = .withDescriptorOf d (afterFailure s) := by
  unfold afterFailure
  rw [apply_ite (State.withDescriptorOf d)]
  rfl

theorem finishSuccess_withDescriptor :
    finishSuccess (.withDescriptorOf d s) = .withDescriptorOf d (finishSuccess s) := by
  unfold finishSuccess
  rw [apply_ite (State.withDescriptorOf d)]
  rfl

theorem onFault_withDescriptor {rest rest' : Option State} (h : rest' = rest.map (.withDescriptorOf d)) :
    onFault rest' (.withDescriptorOf d s) = (onFault rest s).map (.withDescriptorOf d) := by
  unfold onFault
  rw [apply_ite (Option.map (State.withDescriptorOf d)), h]
  rfl

theorem onOverrun_withDescriptor {rest rest' : Option State} (h : rest' = rest.map (.withDescriptorOf d)) :
    onOverrun rest' (.withDescriptorOf d s) = (onOverrun rest s).map (.withDescriptorOf d) := by
  unfold onOverrun
  rw [apply_ite (Option.map (State.withDescriptorOf d)), h]
  rfl

theorem stepOpening_withDescriptor :
    stepOpening (.withDescriptorOf d s) = (stepOpening s).map (.withDescriptorOf d) := by
  have hans : (State.withDescriptorOf d s).tpAns = s.tpAns := rfl
  unfold stepOpening
  rw [hans]
  rcases s.tpAns with _ | _ | _ <;> rfl

theorem stepCtl_withDescriptor : stepCtl (.withDescriptorOf d s) = (stepCtl s).map (.withDescriptorOf d) := by
  unfold stepCtl
  rw [apply_ite (Option.map (State.withDescriptorOf d))]
  rfl

theorem stepSettle_withDescriptor : stepSettle (.withDescriptorOf d s) = (stepSettle s).map (.withDescriptorOf d) := by
  unfold stepSettle
  rw [apply_ite (Option.map (State.withDescriptorOf d))]
  rfl

theorem stepTx_withDescriptor : stepTx (.withDescriptorOf d s) = (stepTx s).map (.withDescriptorOf d) := by
  have hdone := afterTransmission_withDescriptor d (emit (.txDone s.flen) s)
  unfold stepTx
  simp only [apply_ite (Option.map (State.withDescriptorOf d)), Option.map_some, Option.map_none, ← hdone]
  rfl

theorem stepAckwait_withDescriptor :
    stepAckwait (.withDescriptorOf d s) = (stepAckwait s).map (.withDescriptorOf d) := by
  have hq : (State.withDescriptorOf d s).rxq = s.rxq := rfl
  unfold stepAckwait
  rw [hq]
  rcases s.rxq with _ | ⟨b, rest⟩
  · simp only [apply_ite (Option.map (State.withDescriptorOf d))]
    rfl
  · exact congrArg some (takeHandshake_withDescriptor d { s with rxq := rest } b)

theorem stepRdCount_withDescriptor :
    stepRdCount (.withDescriptorOf d s) = (stepRdCount s).map (.withDescriptorOf d) := by
  have hq : (State.withDescriptorOf d s).rxq = s.rxq := rfl
  unfold stepRdCount
  rw [hq]
  rcases s.rxq with _ | ⟨b, rest⟩
  · simp only [apply_ite (Option.map (State.withDescriptorOf d))]
    rfl
  · exact congrArg some (takeResponse_withDescriptor d { s with rxq := rest } _ b (fun _ => rfl))

theorem stepRdDelim_withDescriptor :
    stepRdDelim (.withDescriptorOf d s) = (stepRdDelim s).map (.withDescriptorOf d) := by
  have hq : (State.withDescriptorOf d s).rxq = s.rxq := rfl
  unfold stepRdDelim
  rw [hq]
  rcases s.rxq with _ | ⟨b, rest⟩
  · simp only [apply_ite (Option.map (State.withDescriptorOf d)), Option.map_some, ← delimDeadline_withDescriptor]
    rfl
  · exact congrArg some (takeResponse_withDescriptor d { s with rxq := rest } _ b (fun _ => rfl))

theorem stepRdBurst_withDescriptor :
    stepRdBurst (.withDescriptorOf d s) = (stepRdBurst s).map (.withDescriptorOf d) := by
  have hq : (State.withDescriptorOf d s).rxq = s.rxq := rfl
  unfold stepRdBurst
  rw [hq]
  rcases s.rxq with _ | ⟨b, rest⟩
  · simp only [apply_ite (Option.map (State.withDescriptorOf d))]
    rfl
  · exact congrArg some (takeResponse_withDescriptor d { s with rxq := rest } _ b (fun _ => rfl))

theorem stepRdQuiet_withDescriptor :
    stepRdQuiet (.withDescriptorOf d s) = (stepRdQuiet s).map (.withDescriptorOf d) := by
  unfold stepRdQuiet
  rw [apply_ite (Option.map (State.withDescriptorOf d)), apply_ite (Option.map (State.withDescriptorOf d))]
  rfl

theorem engineRows_withDescriptor : engineRows (.withDescriptorOf d s) = (engineRows s).map (.withDescriptorOf d) := by
  have hst : (State.withDescriptorOf d s).st = s.st := rfl
  unfold engineRows
  rw [hst]
  cases s.st
  case idle | closed => rfl
  case opening => exact stepOpening_withDescriptor d s
  case purge => exact onFault_withDescriptor d s rfl
  case ctl => exact onFault_withDescriptor d s (stepCtl_withDescriptor d s)
  case settle => exact onFault_withDescriptor d s (stepSettle_withDescriptor d s)
  case tx => exact onFault_withDescriptor d s (stepTx_withDescriptor d s)
  case ackwait => exact onFault_withDescriptor d s (onOverrun_withDescriptor d s (stepAckwait_withDescriptor d s))
  case rdCount => exact onFault_withDescriptor d s (onOverrun_withDescriptor d s (stepRdCount_withDescriptor d s))
  case rdDelim => exact onFault_withDescriptor d s (onOverrun_withDescriptor d s (stepRdDelim_withDescriptor d s))
  case rdBurst => exact onFault_withDescriptor d s (onOverrun_withDescriptor d s (stepRdBurst_withDescriptor d s))
  case rdQuiet => exact onFault_withDescriptor d s (onOverrun_withDescriptor d s (stepRdQuiet_withDescriptor d s))
  case failed => exact congrArg some (afterFailure_withDescriptor d s)
  case release => exact congrArg some (finishSuccess_withDescriptor d s)

end

/-- Settles O53: the step function of each state reads the latched copies, the frame and the trace, which stand. -/
theorem engineReadsLatchedCopies : Obligations.EngineReadsLatchedCopies :=
  fun d s => engineRows_withDescriptor d { s with txValid := false }

end Sys2Proof.Machine
end

section
/-! SUPPORT. The host sequence of a Frame Spec (R22, R236): a run of host writes, one step each. -/

namespace Sys2Proof.Machine

/-! ### A run of host writes -/

/-- The same state with other moves to come. -/
def State.withScript (rest : List Move) (s : State) : State := { s with script := rest }

/-- A host write neither reads nor changes the script. -/
theorem performWrite_withScript (w : HostWrite) (s : State) (rest : List Move) :
    performWrite w (s.withScript rest) = (performWrite w s).withScript rest := by
  cases w with
  | cell b i v =>
    rw [performWrite, performWrite, apply_ite (State.withScript rest)]
    rfl
  | len b n =>
    rw [performWrite, performWrite, apply_ite (State.withScript rest)]
    rfl
  | expbytes | rdto | cpValid | cpTpid | cpBaud | cpDbits | cpParity | cpSbits | cpFlow | cpRdto | cpWrto
  | cpRetries | vpfxen | vsuben => rfl

/-- The state after a list of host writes, the block being host-owned. -/
def performWrites : List HostWrite → State → State
  | [], s => s
  | w :: ws, s => performWrites ws (performWrite w s)

theorem performWrites_append (ws ws' : List HostWrite) (s : State) :
    performWrites (ws ++ ws') s = performWrites ws' (performWrites ws s) := by
  induction ws generalizing s with
  | nil => rfl
  | cons w ws ih => exact ih _

theorem performWrites_withScript (ws : List HostWrite) (s : State) (rest : List Move) :
    performWrites ws (s.withScript rest) = (performWrites ws s).withScript rest := by
  induction ws generalizing s with
  | nil => rfl
  | cons w ws ih => rw [performWrites, performWrite_withScript, ih, performWrites]

theorem step_hostWrite {s : State} {w : HostWrite} {rest : List Move} (hr : s.resetHeld = false) (hb : s.busy = false)
    (hs : s.script = writeMove w :: rest) : step s = .next ((performWrite w s).withScript rest) := by
  rw [← performWrite_withScript]
  simp [step, hs, writeMove, performAct, hr, applyAct, hostWrite, hb, State.withScript]

/-- A script of host writes takes a step for each, and the rest of the script follows. -/
theorem run_hostWrites (ws : List HostWrite) {s : State} {rest : List Move} (hr : s.resetHeld = false)
    (hb : s.busy = false) (hs : s.script = ws.map writeMove ++ rest) :
    Host.Core.run Sys2Proof.core ws.length s = .next ((performWrites ws s).withScript rest) := by
  induction ws generalizing s with
  | nil =>
    rw [List.map_nil, List.nil_append] at hs
    subst hs
    rfl
  | cons w ws ih =>
    have k := performWrite_hostKept w s
    have hstep : Sys2Proof.core.step s = .next ((performWrite w s).withScript (ws.map writeMove ++ rest)) :=
      step_hostWrite hr hb hs
    have hrest := ih (s := (performWrite w s).withScript (ws.map writeMove ++ rest)) (k.resetHeld.trans hr)
      (k.busy.trans hb) rfl
    rw [performWrites_withScript] at hrest
    exact (run_succ _ _ hstep).trans hrest

/-! ### The writes of a Frame Spec -/

/-- The writes of a payload from index `k` on, element by element (R236). -/
def payloadWrites (k : Nat) (vs : List (BitVec 32)) : List HostWrite :=
  (vs.zipIdx k).map fun p => .cell .payload p.2 p.1

/-- The host writes that a Frame Spec expands to (R236). -/
def specWrites (fs : FrameSpec) : List HostWrite :=
  payloadWrites 0 fs.payload ++ [.len .payload fs.payload.length, .expbytes fs.expectBytes, .rdto fs.readTimeout]

theorem frameSpecWrites_eq (fs : FrameSpec) : frameSpecWrites fs = (specWrites fs).map writeMove := by
  simp [frameSpecWrites, specWrites, payloadWrites, loadBuffer]

theorem length_specWrites (fs : FrameSpec) : (specWrites fs).length = fs.payload.length + 3 := by
  simp [specWrites, payloadWrites]

/-- The writes of a payload that fits store the low byte of each element (R22). -/
theorem performWrites_payload (vs : List (BitVec 32)) (k : Nat) (s : State) (h : k + vs.length ≤ pmax) :
    performWrites (payloadWrites k vs) s =
      s.setBuf .payload (storeBytes s.payload k (vs.map (fun v => v.setWidth 8))) := by
  induction vs generalizing k s with
  | nil => rfl
  | cons v vs ih =>
    rw [List.length_cons] at h
    have hk : k < Buf.payload.capacity := by show k < pmax; omega
    have hw : performWrite (.cell .payload k v) s = s.setBuf .payload (store s.payload k (v.setWidth 8)) := by
      rw [performWrite_cell v s hk, mask8_toNat]
      rfl
    show performWrites (payloadWrites (k + 1) vs) (performWrite (.cell .payload k v) s) = _
    rw [hw, ih (k + 1) _ (by omega)]
    rfl

theorem performWrites_spec (fs : FrameSpec) (s : State) (h : fs.payload.length ≤ pmax) :
    performWrites (specWrites fs) s =
      { s with
        payload := storeBytes s.payload 0 (fs.payload.map (fun v => v.setWidth 8))
        plen := fs.payload.length
        expbytes := fs.expectBytes
        rdto := fs.readTimeout } := by
  rw [specWrites, performWrites_append, performWrites_payload fs.payload 0 s (by omega)]
  show performWrites [.expbytes fs.expectBytes, .rdto fs.readTimeout] (performWrite (.len .payload fs.payload.length) _) = _
  rw [performWrite_len _ h]
  rfl

/-- Settles O60: one step for each write of the Frame Spec, whose writes load the descriptor. -/
theorem frameSpecIsLoaded : Obligations.FrameSpecIsLoaded := by
  intro s fs rest hr hb hlen hs
  rw [frameSpecWrites_eq] at hs
  have hrun := run_hostWrites (specWrites fs) hr hb hs
  rw [length_specWrites, performWrites_spec fs s hlen] at hrun
  refine ⟨_, hrun, rfl, ?_, rfl, rfl, rfl, rfl⟩
  have hbytes := bytesOf_storeBytes (State.withScript rest { s with
    payload := storeBytes s.payload 0 (fs.payload.map (fun v => v.setWidth 8))
    plen := fs.payload.length
    expbytes := fs.expectBytes
    rdto := fs.readTimeout }) .payload s.payload (fs.payload.map (fun v => v.setWidth 8)) rfl
  rw [List.length_map] at hbytes
  exact hbytes

end Sys2Proof.Machine
end

section
/-! SUPPORT. The decoder and the encoder (R106 to R108, R111): the bytes outside the table, the form that each of the other bytes
selects, and the two directions of the round trip. -/

namespace Sys2Proof.Machine

/-! ### The fields of a command byte (R106, R108) -/

theorem packCmd_eq {c : Byte} {op : BitVec 3} {csm : BitVec 2} (hop : cmdOp c = op) (hcsm : cmdCsm c = csm) :
    packCmd op (cmdAck c) (cmdWrap c) (cmdVal c) csm = c := by
  rw [← hop, ← hcsm, packCmd_fields]

theorem packLow_eq {c : Byte} {op : BitVec 3} (hop : cmdOp c = op) : packLow op (cmdLow c) = c := by
  rw [← hop, packLow_fields]

theorem toNat_cmdOp (c : Byte) : (cmdOp c).toNat = (c >>> 5).toNat := by
  have := c.isLt
  simp only [cmdOp, BitVec.extractLsb'_toNat, BitVec.toNat_ushiftRight, Nat.shiftRight_eq_div_pow]
  omega

theorem cmdCsm_eq_iff (c : Byte) (csm : BitVec 2) : cmdCsm c = csm ↔ c &&& 3 = csm.setWidth 8 := by
  revert c csm; decide

theorem modeOfCsm_eq_some {csm : BitVec 2} {m : ChecksumMode} (h : modeOfCsm csm = some m) : csm = csmOfMode m := by
  revert csm m; decide

/-- A checksum mode field is the reserved code or the code of a mode (R108). -/
theorem csm_cases (csm : BitVec 2) : csm = 3 ∨ ∃ m, csm = csmOfMode m := by
  cases hm : modeOfCsm csm with
  | none => exact .inl ((modeOfCsm_eq_none csm).1 hm)
  | some m => exact .inr ⟨m, modeOfCsm_eq_some hm⟩

theorem opField_cases (op : BitVec 3) :
    op = 0 ∨ op = 1 ∨ op = 2 ∨ op = 3 ∨ op = 4 ∨ op = 5 ∨ op = 6 ∨ op = 7 := by
  revert op; decide

/-! ### The encoding of the forms (R111) -/

theorem encode_csumForm (m : ChecksumMode) (ack wrap val : Bool) :
    encode (csumForm m ack wrap val) = packCmd 0 ack wrap val (csmOfMode m) := by
  cases m <;> rfl

theorem encode_buildForm (wrap : Bool) (m : ChecksumMode) (ack val : Bool) :
    encode (buildForm wrap m ack val) = packCmd 1 ack wrap val (csmOfMode m) := by
  cases wrap <;> cases m <;> rfl

theorem encode_decodeForm (wrap : Bool) (m : ChecksumMode) (ack val : Bool) :
    encode (decodeForm wrap m ack val) = packCmd 2 ack wrap val (csmOfMode m) := by
  cases wrap <;> cases m <;> rfl

/-! ### The form that a command byte selects (R107, R111) -/

/-- What decoding the byte `c` to an instruction means: the instruction's encoding is `c`, no bit dropped, and its form is the one that
`EXPBYTES` selects. -/
def DecodesBack (e : BitVec 16) (c : Byte) (i : Instr) : Prop :=
  decode e c = .ok i ∧ encode i = c ∧ formHolds e i = true

theorem decode_reserved (e : BitVec 16) {c : Byte} (hop : (cmdOp c).toNat ≤ 2) (hcsm : cmdCsm c = 3) :
    decode e c = .error .reservedCsm := by
  obtain hop | hop | hop : cmdOp c = 0 ∨ cmdOp c = 1 ∨ cmdOp c = 2 := by bv_omega
  · simp [decode, decodeCsum, hop, hcsm]
  · simp [decode, decodeBuild, hop, hcsm]
  · simp [decode, decodeDecode, hop, hcsm]

theorem decodesBack_csumForm (e : BitVec 16) {c : Byte} {m : ChecksumMode} (hop : cmdOp c = 0) (hcsm : cmdCsm c = csmOfMode m) :
    DecodesBack e c (csumForm m (cmdAck c) (cmdWrap c) (cmdVal c)) := by
  refine ⟨?_, (encode_csumForm ..).trans (packCmd_eq hop hcsm), ?_⟩
  · cases m <;> simp [decode, decodeCsum, csumForm, csmOfMode, hop, hcsm]
  · cases m <;> rfl

theorem decodesBack_buildForm (e : BitVec 16) {c : Byte} {m : ChecksumMode} (hop : cmdOp c = 1) (hcsm : cmdCsm c = csmOfMode m) :
    DecodesBack e c (buildForm (cmdWrap c) m (cmdAck c) (cmdVal c)) := by
  refine ⟨?_, (encode_buildForm ..).trans (packCmd_eq hop hcsm), ?_⟩
  · cases hw : cmdWrap c <;> cases m <;> simp [decode, decodeBuild, buildForm, csmOfMode, hop, hcsm, hw]
  · cases cmdWrap c <;> cases m <;> rfl

theorem decodesBack_decodeForm (e : BitVec 16) {c : Byte} {m : ChecksumMode} (hop : cmdOp c = 2) (hcsm : cmdCsm c = csmOfMode m) :
    DecodesBack e c (decodeForm (cmdWrap c) m (cmdAck c) (cmdVal c)) := by
  refine ⟨?_, (encode_decodeForm ..).trans (packCmd_eq hop hcsm), ?_⟩
  · cases hw : cmdWrap c <;> cases m <;> simp [decode, decodeDecode, decodeForm, csmOfMode, hop, hcsm, hw]
  · cases cmdWrap c <;> cases m <;> rfl

theorem decodesBack_exchange (e : BitVec 16) {c : Byte} (hop : cmdOp c = 3) : DecodesBack e c (decodeXchg e c) := by
  have hpack := packCmd_eq (c := c) hop rfl
  refine ⟨by simp [decode, hop], ?_⟩
  unfold decodeXchg
  split
  next ha he => exact ⟨by simpa [encode, ha] using hpack, he⟩
  next ha he => exact ⟨by simpa [encode, ha] using hpack, by simpa [formHolds] using he⟩
  next ha he => exact ⟨by simpa [encode, ha] using hpack, by simpa [formHolds] using he⟩
  next ha he =>
    split
    next hw => exact ⟨by simpa [encode, ha, hw] using hpack, he⟩
    next hw => exact ⟨by simpa [encode, ha, hw] using hpack, he⟩

/-- A command byte lies outside the table exactly with the reserved mode under `CSUM`, `BUILD` or `DECODE`; every other byte decodes, and
back (R111, R113). -/
theorem decode_cases (e : BitVec 16) (c : Byte) :
    ((cmdOp c).toNat ≤ 2 ∧ cmdCsm c = 3 ∧ decode e c = .error .reservedCsm) ∨
    (¬ ((cmdOp c).toNat ≤ 2 ∧ cmdCsm c = 3) ∧ ∃ i, DecodesBack e c i) := by
  by_cases hr : (cmdOp c).toNat ≤ 2 ∧ cmdCsm c = 3
  · exact .inl ⟨hr.1, hr.2, decode_reserved e hr.1 hr.2⟩
  have hmode (hop : (cmdOp c).toNat ≤ 2) : ∃ m, cmdCsm c = csmOfMode m :=
    (csm_cases (cmdCsm c)).resolve_left fun hcsm => hr ⟨hop, hcsm⟩
  refine .inr ⟨hr, ?_⟩
  obtain hop | hop | hop | hop | hop | hop | hop | hop := opField_cases (cmdOp c)
  · obtain ⟨m, hcsm⟩ := hmode (by simp [hop])
    exact ⟨_, decodesBack_csumForm e hop hcsm⟩
  · obtain ⟨m, hcsm⟩ := hmode (by simp [hop])
    exact ⟨_, decodesBack_buildForm e hop hcsm⟩
  · obtain ⟨m, hcsm⟩ := hmode (by simp [hop])
    exact ⟨_, decodesBack_decodeForm e hop hcsm⟩
  · exact ⟨_, decodesBack_exchange e hop⟩
  · exact ⟨.pfx (cmdLow c), by simp [decode, hop], packLow_eq hop, rfl⟩
  · exact ⟨.sub (cmdLow c), by simp [decode, hop], packLow_eq hop, rfl⟩
  · exact ⟨.reservedOp6 (cmdLow c), by simp [decode, hop], packLow_eq hop, rfl⟩
  · exact ⟨.reservedOp7 (cmdLow c), by simp [decode, hop], packLow_eq hop, rfl⟩

/-! ### The round trip -/

/-- By family of forms: the sub-decoder that the operation field selects reads the mode and the flags back from the fields that the
encoder packed; only the forms of `XCHG` use the condition on `EXPBYTES`. -/
theorem decode_encode {e : BitVec 16} {i : Instr} (h : formHolds e i = true) : decode e (encode i) = .ok i := by
  cases i with
  | csumNone | csumXor7 | csumSum8 => simp [encode, decode, decodeCsum]
  | buildUNone | buildUXor7 | buildUSum8 | buildWNone | buildWXor7 | buildWSum8 => simp [encode, decode, decodeBuild]
  | decodeUNone | decodeUXor7 | decodeUSum8 | decodeWNone | decodeWXor7 | decodeWSum8 =>
    simp [encode, decode, decodeDecode]
  | xchgFF | xchgAD | xchgAB =>
    have hzero : e = 0#16 := by simpa [formHolds] using h
    simp [encode, decode, decodeXchg, hzero]
  | xchgN | xchgAN =>
    have hcount : (e == 0#16) = false := by simpa [formHolds] using h
    simp [encode, decode, decodeXchg, hcount]
  | pfx | sub | reservedOp6 | reservedOp7 => simp [encode, decode]

theorem encode_of_decode {e : BitVec 16} {c : Byte} {i : Instr} (h : decode e c = .ok i) :
    encode i = c ∧ formHolds e i = true := by
  obtain ⟨-, -, herr⟩ | ⟨-, j, hj, henc, hform⟩ := decode_cases e c
  · cases herr.symm.trans h
  · cases hj.symm.trans h
    exact ⟨henc, hform⟩

/-- Settles O1: every field that `encode` packs is read back by `decode`. -/
theorem decodeOfEncode : Obligations.DecodeOfEncode := fun _ _ => decode_encode

/-- Settles O2: by the inversion `decode_cases`. -/
theorem encodeOfDecode : Obligations.EncodeOfDecode := fun _ _ _ => encode_of_decode

/-- Settles O4: each byte is the encoding of the form it stands for, so O1 decodes it. -/
theorem writtenWordsDecode : Obligations.WrittenWordsDecode :=
  ⟨decode_encode (i := .csumSum8 false false false) rfl, decode_encode (i := .buildWXor7 false false) rfl,
    decode_encode (i := .decodeUNone true true) rfl, decode_encode (i := .xchgFF true false 2) rfl,
    decode_encode (i := .xchgN false true 1) rfl, decode_encode (i := .xchgAN true false 1) rfl,
    decode_encode (i := .xchgAD true 2) rfl, decode_encode (i := .xchgAB false 0) rfl,
    decode_encode (i := .pfx 3) rfl, decode_encode (i := .sub 16) rfl,
    decode_encode (i := .reservedOp6 0) rfl, decode_encode (i := .reservedOp7 31) rfl⟩

/-! ### The reserved encodings (R107, R108, R113) -/

theorem exists_decode_error_iff (e : BitVec 16) (c : Byte) :
    (∃ r, decode e c = .error r) ↔ (cmdOp c).toNat ≤ 2 ∧ cmdCsm c = 3 := by
  obtain ⟨hop, hcsm, herr⟩ | ⟨hlegal, i, hi, -⟩ := decode_cases e c
  · exact ⟨fun _ => ⟨hop, hcsm⟩, fun _ => ⟨_, herr⟩⟩
  · exact ⟨fun ⟨r, hr⟩ => (nomatch hi.symm.trans hr), fun h => absurd h hlegal⟩

theorem exchange_fields {i : Instr} (h : isExchange i = true) :
    cmdOp (encode i) = 3 ∧ i.wellFormed = legalCsm (cmdCsm (encode i)) := by
  cases i with
  | xchgFF | xchgN | xchgAN | xchgAD | xchgAB => simp [encode, Instr.wellFormed]
  | _ => cases h

/-- The ill-formed instructions by the fields of their command byte (R113). -/
theorem wellFormed_eq_false_iff (i : Instr) :
    i.wellFormed = false ↔
      6 ≤ (cmdOp (encode i)).toNat ∨ ((cmdOp (encode i)).toNat = 3 ∧ cmdCsm (encode i) = 3) := by
  cases i with
  | xchgFF | xchgN | xchgAN | xchgAD | xchgAB => simp [encode, Instr.wellFormed, legalCsm]
  | _ => simp [encode, Instr.wellFormed]

/-- Settles O3: by `decode_cases` for the error, by the encoding of the decoded instruction for the ill-formed ones. -/
theorem reservedEncodings : Obligations.ReservedEncodings := by
  intro e c
  have hcsm : cmdCsm c = 3 ↔ c &&& 3 = 3 := cmdCsm_eq_iff c 3
  rw [← toNat_cmdOp, ← hcsm]
  refine ⟨exists_decode_error_iff e c, ?_, fun h => ?_⟩
  · rintro ⟨i, hi, hwf⟩
    rwa [wellFormed_eq_false_iff, (encode_of_decode hi).1] at hwf
  · obtain ⟨hop, -⟩ | ⟨-, i, hi, henc, -⟩ := decode_cases e c
    · omega
    · exact ⟨i, hi, by rwa [wellFormed_eq_false_iff, henc]⟩

end Sys2Proof.Machine
end

section
/-! SUPPORT. The issue of a command by a step of the script (R110): the run of the decoded instruction, the refusals (R267, R268), and an
exchange without a configuration (R282). -/

namespace Sys2Proof.Machine

/-! ### The command as the next move -/

theorem step_decoded {s : State} {c : Byte} {rest : List Move} {i : Instr} (hr : s.resetHeld = false)
    (hs : s.script = .command c :: rest) (hd : decode s.expbytes c = .ok i) :
    step s = exec i { s with script := rest } := by
  simp [step, hs, hr, hd]

/-- A command move is the write of its byte (R110), with the operation of the decoded instruction, or none for a byte outside the table. -/
theorem step_command {s : State} {c : Byte} {rest : List Move} (hr : s.resetHeld = false)
    (hs : s.script = .command c :: rest) :
    ∃ run, step s = .next (issueCommand c run { s with script := rest }) := by
  obtain ⟨-, -, herr⟩ | ⟨-, i, hi, henc, -⟩ := decode_cases s.expbytes c
  · exact ⟨runNothing, by simp [step, hs, hr, herr, rejectCommand]⟩
  · exact ⟨operationOf i, by rw [step_decoded hr hs hi, exec_eq, henc]⟩

theorem withFetchWord_encode (s : State) (i : Instr) :
    s.withFetchWord 8 (encode i).toNat = { s with resetHeld := false, script := .command (encode i) :: s.script } := by
  have hbyte : BitVec.ofNat 8 ((encode i).toNat % 2 ^ 8) = encode i := by
    rw [Nat.mod_eq_of_lt (encode i).isLt, BitVec.ofNat_toNat, BitVec.setWidth_eq]
  rw [State.withFetchWord, placeCommand, hbyte]

/-- Settles O5: the placed byte is an encoding, which decodes by O1. -/
theorem stepRunsDecodedCommand : Obligations.StepRunsDecodedCommand := by
  refine ⟨fun s c rest i => step_decoded, fun s i h => ?_⟩
  rw [withFetchWord_encode]
  exact step_decoded rfl rfl (decode_encode h)

/-! ### Refusals (R267, R268) -/

theorem issueCommand_afterRefusal (run : State → State) {c : Byte} {s : State} (hb : s.busy = false) (h : refusalOf c s ≠ none) :
    issueCommand c run s = afterRefusal c s :=
  issueCommand_refused c run s hb h

theorem framingBytes_raw (c : Byte) :
    framingBytes c = 2 * (c.getLsbD 3).toNat + (if c &&& 3 = 0 then 0 else 1) := by
  have hcsm : cmdCsm c = 0 ↔ c &&& 3 = 0 := cmdCsm_eq_iff c 0
  have hwrap : (if cmdWrap c then 2 else 0) = 2 * (cmdWrap c).toNat := by cases cmdWrap c <;> rfl
  rw [framingBytes, hwrap, if_congr hcsm rfl rfl]
  rfl

/-- The four reasons of R268 besides `busy`: reserved operation, reserved mode, count too large, body too long. -/
theorem refusalOf_ne_none {c : Byte} {s : State}
    (h : 6 ≤ (cmdOp c).toNat ∨ ((cmdOp c).toNat ≤ 3 ∧ cmdCsm c = 3) ∨ ((cmdOp c).toNat = 3 ∧ tmax < s.expbytes.toNat) ∨
      ((cmdOp c).toNat = 2 ∧ framingBytes c + pmax < s.flen)) :
    refusalOf c s ≠ none := by
  intro hnone
  obtain ⟨-, h6, h7, hcsm, hcount, hbody⟩ := (refusalOf_eq_none c s).1 hnone
  obtain hop | ⟨hop, hc⟩ | ⟨hop, hc⟩ | ⟨hop, hc⟩ := h
  · obtain h | h : cmdOp c = 6 ∨ cmdOp c = 7 := by bv_omega
    · exact h6 h
    · exact h7 h
  · exact hcsm (by bv_omega) hc
  · have := hcount (by bv_omega)
    omega
  · have := hbody (by bv_omega) (by omega)
    omega

/-- Settles O20: each reason makes the command end in the refusal, whichever operation its byte selects. -/
theorem refusedCommands : Obligations.RefusedCommands := by
  intro s c rest hr hs
  obtain ⟨run, hstep⟩ := step_command hr hs
  have hcsm : cmdCsm c = 3 ↔ c &&& 3 = 3 := cmdCsm_eq_iff c 3
  rw [hstep, ← toNat_cmdOp, ← hcsm, ← framingBytes_raw]
  refine ⟨fun hb => ?_, fun hb hreason => ?_⟩
  · exact congrArg _ (issueCommand_busy c run _ hb)
  · exact congrArg _ (issueCommand_afterRefusal run hb (refusalOf_ne_none hreason))

/-- Settles O21: the fields of an ill-formed instruction's byte are a reason of R268. -/
theorem illFormedIsRefused : Obligations.IllFormedIsRefused := by
  intro i s hwf hb
  have hrefused : refusalOf (encode i) s ≠ none :=
    refusalOf_ne_none (((wellFormed_eq_false_iff i).1 hwf).imp_right fun ⟨hop, hcsm⟩ => .inl ⟨hop.le, hcsm⟩)
  rw [exec_eq, issueCommand_afterRefusal _ hb hrefused]

/-! ### An exchange without a configuration (R282) -/

/-- A legal exchange within the count meets no reason of R268. -/
theorem refusalOf_exchange {i : Instr} {s : State} (hx : isExchange i = true) (hwf : i.wellFormed = true) (hb : s.busy = false)
    (hcount : s.expbytes.toNat ≤ tmax) : refusalOf (encode i) s = none := by
  obtain ⟨hop, hlegal⟩ := exchange_fields hx
  have hcsm : cmdCsm (encode i) ≠ 3 := by simpa [hwf, legalCsm] using hlegal
  rw [refusalOf_eq_none, hop]
  exact ⟨hb, by decide, by decide, fun _ => hcsm, fun _ => hcount, fun h => absurd h (by decide)⟩

/-- Settles O23: no reason of R268 is met, so the command ends in step 7 of R110. -/
theorem xchgWithoutConfiguration : Obligations.XchgWithoutConfiguration := by
  intro i s hx hwf hb hcount hvalid
  rw [exec_eq, issueCommand_missing _ _ s (refusalOf_exchange hx hwf hb hcount) (exchange_fields hx).1 hvalid]
  rfl

end Sys2Proof.Machine
end

section
/-! SUPPORT. The layout of a built frame (R101, R137). -/

namespace Sys2Proof.Machine

theorem frameOf_unwrapped (p : List Byte) (m : ChecksumMode) : frameOf p false m = p ++ (csum m p).toList := by
  simp [frameOf]

theorem frameOf_wrapped (p : List Byte) (m : ChecksumMode) :
    frameOf p true m = startByte :: (p ++ (csum m p).toList ++ [endByte]) := by
  simp [frameOf]

/-- The frame around any payload of bytes has the fields of R101 at their indices. -/
theorem frameOf_layout (p : List Byte) (wrap : Bool) (m : ChecksumMode) : FrameLayout p wrap m (frameOf p wrap m) where
  length := by
    rw [length_frameOf, framingNeed]
    cases wrap
    · simp
    · simp
      omega
  startDelimiter hw := by simp [hw, frameOf_wrapped]
  payload i hi := by
    cases wrap
    · simp [frameOf_unwrapped, List.getElem?_append_left hi]
    · simp [frameOf_wrapped, List.append_assoc, List.getElem?_append_left hi]
  checksum c hc := by
    cases wrap <;> simp [frameOf_unwrapped, frameOf_wrapped, hc]
  endDelimiter hw := by
    rw [← List.getLast?_eq_getElem?, hw, frameOf_wrapped]
    simp [List.getLast?_cons]

/-- Settles O6: `build_frame` is the frame around the masked payload. -/
theorem frameHasLayout : Obligations.FrameHasLayout :=
  ⟨fun p wrap m => frameOf_layout (maskP p) wrap m, rfl, rfl, rfl⟩

end Sys2Proof.Machine
end

section
/-! SUPPORT. The masking of payload values and the two checksums (R131 to R134): `mask8` as a remainder, each bit of `xor7` as a parity,
`sum8` as a sum. -/

namespace Sys2Proof.Machine

/-! ### Masking (R131) -/

theorem toNat_mask8 (v : Int) : ((mask8 v).toNat : Int) = v % 256 := by
  simp only [mask8, BitVec.toNat_ofInt]
  omega

/-- A value that is already a byte is not changed by the mask. -/
@[simp] theorem mask8_toNat_byte (b : Byte) : mask8 b.toNat = b := by
  simp [mask8]

theorem toNat_mask8_of_byte {v : Int} (h0 : 0 ≤ v) (h1 : v ≤ 255) : ((mask8 v).toNat : Int) = v := by
  rw [toNat_mask8]
  omega

theorem maskP_toNat (p : List Byte) : maskP (p.map fun b => (b.toNat : Int)) = p := by
  simp [maskP, Function.comp_def]

theorem toNat_maskP {p : List Int} (h : ∀ v ∈ p, 0 ≤ v ∧ v ≤ 255) : (maskP p).map (fun b => (b.toNat : Int)) = p := by
  rw [maskP, List.map_map]
  calc p.map _ = p.map id := List.map_congr_left fun v hv => toNat_mask8_of_byte (h v hv).1 (h v hv).2
    _ = p := List.map_id p

/-- Settles O8: the four worked values are evaluated, the rest are the laws of the mask. -/
theorem maskIsRemainder : Obligations.MaskIsRemainder :=
  ⟨fun v => ⟨toNat_mask8 v, mask8_toNat_byte _⟩, fun _ => toNat_mask8_of_byte, by decide,
    fun p => ⟨length_maskP p, fun i => by rw [maskP, List.getElem?_map]⟩⟩

/-! ### `xor7` (R132) -/

/-- Bit `k` of the XOR of all bytes: each byte that has the bit turns it over. -/
theorem getLsbD_foldl_xor (p : List Byte) (a : Byte) (k : Nat) :
    (p.foldl (fun a b => a ^^^ b) a).getLsbD k = (a.getLsbD k ^^ decide (p.countP (fun b => b.getLsbD k) % 2 = 1)) := by
  induction p generalizing a with
  | nil => simp
  | cons b p ih =>
    rw [List.foldl_cons, ih, BitVec.getLsbD_xor, List.countP_cons]
    cases b.getLsbD k
    · simp
    · have hflip : decide ((p.countP (fun b => b.getLsbD k) + 1) % 2 = 1) = !decide (p.countP (fun b => b.getLsbD k) % 2 = 1) := by
        rw [← decide_not, decide_eq_decide]
        omega
      simp [hflip]

theorem getLsbD_lowMask (k : Nat) : (0x7F : Byte).getLsbD k = decide (k < 7) := by
  by_cases hk : k < 8
  · revert k; decide
  · have hk7 : ¬ k < 7 := by omega
    rw [BitVec.getLsbD_of_ge (0x7F : Byte) k (by omega), decide_eq_false hk7]

/-- Bit `k` of `xor7` is the parity of the bits `k` if `k < 7`, and 0 above. -/
theorem getLsbD_xor7 (p : List Byte) (k : Nat) :
    (xor7 p).getLsbD k = (decide (p.countP (fun b => b.getLsbD k) % 2 = 1) && decide (k < 7)) := by
  rw [xor7, BitVec.getLsbD_and, getLsbD_foldl_xor, getLsbD_lowMask]
  simp

theorem toNat_xor7_le (p : List Byte) : (xor7 p).toNat ≤ 127 := by
  rw [xor7, BitVec.toNat_and]
  exact Nat.and_le_right

/-- Masking the bytes to 7 bits before the XOR changes no bit of the result. -/
theorem xor7_map_lowMask (p : List Byte) : xor7 (p.map fun b => b &&& 0x7F) = xor7 p := by
  apply BitVec.eq_of_getLsbD_eq
  intro k _
  rw [getLsbD_xor7, getLsbD_xor7, List.countP_map]
  by_cases hk : k < 7
  · have hbit (b : Byte) : (b &&& 0x7F).getLsbD k = b.getLsbD k := by
      rw [BitVec.getLsbD_and, getLsbD_lowMask, decide_eq_true hk, Bool.and_true]
    simp only [Function.comp_def, hbit]
  · simp [hk]

/-- Settles O9: the bits below 7 of `xor7` are parities. -/
theorem xor7IsBitParity : Obligations.Xor7IsBitParity :=
  ⟨fun p k hk => by rw [getLsbD_xor7, decide_eq_true hk, Bool.and_true],
    fun p => ⟨toNat_xor7_le _, xor7_map_lowMask _⟩, rfl⟩

/-! ### `sum8` (R133) -/

theorem toNat_foldl_add (p : List Byte) (a : Byte) :
    (p.foldl (fun a b => a + b) a).toNat = (a.toNat + (p.map fun b => b.toNat).sum) % 256 := by
  induction p generalizing a with
  | nil => simp; omega
  | cons b p ih =>
    rw [List.foldl_cons, ih, BitVec.toNat_add, List.map_cons, List.sum_cons]
    omega

theorem toNat_sum8 (p : List Byte) : (sum8 p).toNat = (p.map fun b => b.toNat).sum % 256 := by
  rw [sum8, toNat_foldl_add]
  simp

theorem sum8_append_singleton (p : List Byte) (b : Byte) : sum8 (p ++ [b]) = sum8 p + b := by
  simp [sum8]

/-- Settles O10: `sum8` adds byte by byte modulo 256. -/
theorem sum8IsSumModulo256 : Obligations.Sum8IsSumModulo256 :=
  ⟨fun p => toNat_sum8 _, fun p v => by rw [maskP, List.map_append]; exact sum8_append_singleton _ _, rfl⟩

end Sys2Proof.Machine
end

section
/-! SUPPORT. The decoder of frames (R139): what each test answers, and that the layout of R101 determines the frame, so that the decoder
accepts a frame and no other bytes. -/

namespace Sys2Proof.Machine

/-! ### The layout determines the frame (R101) -/

theorem framingNeed_eq (wrap : Bool) (m : ChecksumMode) :
    framingNeed wrap m = 2 * wrap.toNat + (if m = .none then 0 else 1) := by
  cases wrap <;> rfl

theorem csum_isSome {m : ChecksumMode} (h : m ≠ .none) (p : List Byte) : ∃ c, csum m p = some c := by
  cases m with
  | none => contradiction
  | xor7 => exact ⟨_, rfl⟩
  | sum8 => exact ⟨_, rfl⟩

/-- Every index below the length is one of the four fields of R101. -/
theorem FrameLayout.unique {p f g : List Byte} {wrap : Bool} {m : ChecksumMode} (hf : FrameLayout p wrap m f)
    (hg : FrameLayout p wrap m g) : f = g := by
  have hlen : f.length = g.length := hf.length.trans hg.length.symm
  have hi := hf.length
  have hw : wrap.toNat ≤ 1 := Bool.toNat_le wrap
  have hwrap : wrap.toNat = 1 → wrap = true := Bool.toNat_eq_one.1
  apply List.ext_getElem?
  intro i
  by_cases hend : f.length ≤ i
  · rw [List.getElem?_eq_none hend, List.getElem?_eq_none (hlen ▸ hend)]
  by_cases hstart : i < wrap.toNat
  · obtain rfl : i = 0 := by omega
    have hwrap := hwrap (by omega)
    rw [hf.startDelimiter hwrap, hg.startDelimiter hwrap]
  by_cases hpay : i < p.length + wrap.toNat
  · obtain ⟨j, rfl⟩ : ∃ j, i = j + wrap.toNat := ⟨i - wrap.toNat, by omega⟩
    rw [hf.payload j (by omega), hg.payload j (by omega)]
  by_cases hsum : m ≠ .none ∧ i = p.length + wrap.toNat
  · obtain ⟨hm, rfl⟩ := hsum
    obtain ⟨c, hc⟩ := csum_isSome hm p
    rw [hf.checksum c hc, hg.checksum c hc]
  · have hbeyond : p.length + wrap.toNat + (if m = .none then 0 else 1) ≤ i := by
      split
      · omega
      · have : i ≠ p.length + wrap.toNat := fun h => hsum ⟨‹_›, h⟩
        omega
    obtain rfl : i = f.length - 1 := by omega
    have hwrap := hwrap (by omega)
    rw [hf.endDelimiter hwrap, hlen, hg.endDelimiter hwrap]

/-- The bytes with the layout of a frame of `p` are the built frame. -/
theorem frameLayout_iff (p f : List Byte) (wrap : Bool) (m : ChecksumMode) :
    FrameLayout p wrap m f ↔ f = frameOf p wrap m :=
  ⟨fun h => h.unique (frameOf_layout p wrap m), fun h => h ▸ frameOf_layout p wrap m⟩

/-! ### The tests of the decoder, in the order of R139 -/

/-- The length test and the tests of both delimiters pass. -/
structure Delimited (f : List Byte) (wrap : Bool) (m : ChecksumMode) : Prop where
  length : framingNeed wrap m ≤ f.length
  startDelimiter : wrap = true → f.head? = some startByte
  endDelimiter : wrap = true → f.getLast? = some endByte

section
variable {f : List Byte} {wrap : Bool} {m : ChecksumMode}

theorem decodeFrame_tooShort (h : f.length < framingNeed wrap m) : decodeFrame f wrap m = .error .tooShort := by
  rw [decodeFrame, if_pos h]

theorem decodeFrame_badStart (hlen : framingNeed wrap m ≤ f.length) (hw : wrap = true) (h : f.head? ≠ some startByte) :
    decodeFrame f wrap m = .error .badStart := by
  rw [decodeFrame, if_neg (by omega), if_pos ⟨hw, h⟩]

theorem decodeFrame_badEnd (hlen : framingNeed wrap m ≤ f.length) (hw : wrap = true) (hs : f.head? = some startByte)
    (h : f.getLast? ≠ some endByte) : decodeFrame f wrap m = .error .badEnd := by
  rw [decodeFrame, if_neg (by omega), if_neg (fun k => k.2 hs), if_pos ⟨hw, h⟩]

theorem decodeFrame_delimited (h : Delimited f wrap m) :
    decodeFrame f wrap m = decodeBody (if wrap then f.tail.dropLast else f) m := by
  rw [decodeFrame, if_neg (by have := h.length; omega), if_neg (fun k => k.2 (h.startDelimiter k.1)),
    if_neg (fun k => k.2 (h.endDelimiter k.1))]

/-- Only bytes that pass the three tests are decoded. -/
theorem delimited_of_decodeFrame {p : List Byte} (h : decodeFrame f wrap m = .ok p) : Delimited f wrap m := by
  unfold decodeFrame at h
  split at h
  · cases h
  split at h
  · cases h
  split at h
  · cases h
  rename_i hlen hs he
  exact ⟨by omega, fun hw => by_contra fun k => hs ⟨hw, k⟩, fun hw => by_contra fun k => he ⟨hw, k⟩⟩

end

theorem decodeBody_of_ne_none {m : ChecksumMode} (hm : m ≠ .none) (body : List Byte) :
    decodeBody body m = if body.getLast? = csum m body.dropLast then .ok body.dropLast else .error .badChecksum := by
  cases m with
  | none => contradiction
  | xor7 | sum8 => rfl

/-- The body is accepted exactly when it is a payload followed by its checksum. -/
theorem decodeBody_eq_ok_iff (body p : List Byte) (m : ChecksumMode) :
    decodeBody body m = .ok p ↔ body = p ++ (csum m p).toList := by
  by_cases hm : m = .none
  · subst hm
    simp [decodeBody, csum]
  · obtain ⟨c, hc⟩ := csum_isSome hm p
    rw [decodeBody_of_ne_none hm, hc]
    constructor
    · intro h
      split at h
      · rename_i hlast
        obtain rfl : body.dropLast = p := by simpa using h
        exact (List.dropLast_append_getLast? c (by rw [hlast, hc]; rfl)).symm
      · cases h
    · rintro rfl
      simp [hc]

/-- A body that is refused has a wrong checksum. -/
theorem decodeBody_error {body : List Byte} {m : ChecksumMode} (h : ∀ p, decodeBody body m ≠ .ok p) :
    decodeBody body m = .error .badChecksum := by
  by_cases hm : m = .none
  · subst hm
    exact absurd rfl (h body)
  · rw [decodeBody_of_ne_none hm] at h ⊢
    exact if_neg fun hlast => h body.dropLast (if_pos hlast)

/-- Bytes that pass the tests are the two delimiters around their body. -/
theorem eq_delimiters_of_delimited {f : List Byte} {m : ChecksumMode} (h : Delimited f true m) :
    f = startByte :: (f.tail.dropLast ++ [endByte]) := by
  have hs := h.startDelimiter rfl
  have he := h.endDelimiter rfl
  have hlen := h.length
  cases f with
  | nil => cases hs
  | cons a f =>
    obtain rfl : a = startByte := by simpa using hs
    have hne : f ≠ [] := by
      rintro rfl
      simp only [framingNeed, if_true, List.length_singleton] at hlen
      omega
    rw [List.getLast?_cons_of_ne_nil hne] at he
    rw [List.tail_cons, List.dropLast_append_getLast? endByte he]

theorem delimited_frameOf (p : List Byte) (wrap : Bool) (m : ChecksumMode) : Delimited (frameOf p wrap m) wrap m where
  length := by rw [length_frameOf]; omega
  startDelimiter hw := by rw [List.head?_eq_getElem?]; exact (frameOf_layout p wrap m).startDelimiter hw
  endDelimiter hw := by rw [List.getLast?_eq_getElem?]; exact (frameOf_layout p wrap m).endDelimiter hw

/-- The decoder accepts a frame and no other bytes (R139). -/
theorem decodeFrame_eq_ok_iff (f p : List Byte) (wrap : Bool) (m : ChecksumMode) :
    decodeFrame f wrap m = .ok p ↔ f = frameOf p wrap m := by
  constructor
  · intro h
    have hd := delimited_of_decodeFrame h
    rw [decodeFrame_delimited hd, decodeBody_eq_ok_iff] at h
    cases wrap
    · rw [frameOf_unwrapped]
      exact h
    · rw [frameOf_wrapped, ← h]
      exact eq_delimiters_of_delimited hd
  · rintro rfl
    rw [decodeFrame_delimited (delimited_frameOf p wrap m), decodeBody_eq_ok_iff]
    cases wrap
    · rw [frameOf_unwrapped]
      rfl
    · rw [frameOf_wrapped, List.tail_cons, List.dropLast_concat]
      rfl

theorem decodeFrame_eq_ok_iff_layout (f p : List Byte) (wrap : Bool) (m : ChecksumMode) :
    decodeFrame f wrap m = .ok p ↔ FrameLayout p wrap m f := by
  rw [decodeFrame_eq_ok_iff, frameLayout_iff]

/-- Bytes that pass the three tests and are no frame have a wrong checksum. -/
theorem decodeFrame_badChecksum {f : List Byte} {wrap : Bool} {m : ChecksumMode} (hd : Delimited f wrap m)
    (h : ∀ p, ¬ FrameLayout p wrap m f) : decodeFrame f wrap m = .error .badChecksum := by
  have hbody := decodeFrame_delimited hd
  rw [hbody]
  exact decodeBody_error fun p hp => h p ((decodeFrame_eq_ok_iff_layout f p wrap m).1 (hbody.trans hp))

/-- Settles O11: a clause for each test of R139, then the frames. -/
theorem decodeFrameReportsFirstDefect : Obligations.DecodeFrameReportsFirstDefect := by
  intro f wrap m
  rw [← framingNeed_eq, ← List.head?_eq_getElem?, ← List.getLast?_eq_getElem?]
  exact ⟨decodeFrame_tooShort, decodeFrame_badStart, decodeFrame_badEnd, fun p => decodeFrame_eq_ok_iff_layout f p wrap m,
    fun hlen hdel => decodeFrame_badChecksum ⟨hlen, fun hw => (hdel hw).1, fun hw => (hdel hw).2⟩⟩

/-! ### The laws of the codec (R156) -/

theorem buildFrame_unwrapped (p : List Int) (m : ChecksumMode) :
    buildFrame p false m = maskP p ++ (csum m (maskP p)).toList :=
  frameOf_unwrapped _ _

theorem length_buildFrame (p : List Int) (wrap : Bool) (m : ChecksumMode) :
    (buildFrame p wrap m).length = p.length + framingNeed wrap m := by
  rw [buildFrame, length_frameOf, length_maskP]

/-- An unwrapped frame holds the masked payload and the checksum byte at the index after it, and nothing else. -/
theorem getElem?_buildFrame_unwrapped (p : List Int) (m : ChecksumMode) (i : Nat) (d : Byte) :
    (buildFrame p false m)[i]? = some d ↔ (maskP p)[i]? = some d ∨ (i = p.length ∧ csum m (maskP p) = some d) := by
  rw [buildFrame_unwrapped]
  rcases lt_trichotomy i (maskP p).length with hi | hi | hi
  · rw [List.getElem?_append_left hi]
    rw [length_maskP] at hi
    simp [hi.ne]
  · subst hi
    rw [List.getElem?_append_right le_rfl]
    cases csum m (maskP p) <;> simp
  · have hsum : (csum m (maskP p)).toList.length ≤ 1 := by cases csum m (maskP p) <;> simp
    rw [List.getElem?_append_right hi.le, List.getElem?_eq_none (by omega), List.getElem?_eq_none hi.le]
    rw [length_maskP] at hi
    simp [hi.ne']

theorem buildFrame_maskP (p : List Int) (wrap : Bool) (m : ChecksumMode) :
    buildFrame ((maskP p).map fun b => (b.toNat : Int)) wrap m = buildFrame p wrap m := by
  rw [buildFrame, maskP_toNat, buildFrame]

/-- Settles O7: the laws of the layout, of the mask and of the decoder; the two bytes of an empty wrapped frame are also an unwrapped
payload. -/
theorem codecLaws : Obligations.CodecLaws := by
  refine ⟨fun p m => ⟨?_, ?_, ?_⟩, fun p m => ⟨?_, ?_, fun d i _ => getElem?_buildFrame_unwrapped p m i d⟩,
    fun p wrap m => (buildFrame_maskP p wrap m).symm,
    fun p wrap m => ⟨(decodeFrame_eq_ok_iff _ _ wrap m).2 rfl, toNat_maskP⟩, by decide, ?_⟩
  · exact (delimited_frameOf (maskP p) true m).startDelimiter rfl
  · exact (delimited_frameOf (maskP p) true m).endDelimiter rfl
  · rw [length_buildFrame, framingNeed_eq]
    simp [add_assoc]
  · rw [length_buildFrame, framingNeed_eq]
    simp
  · rw [buildFrame_unwrapped, ← length_maskP p, List.take_left]
  · exact ⟨[startByte, endByte], [startByte, endByte], [], false, true, .none, .none, rfl, rfl, by decide⟩

end Sys2Proof.Machine
end

section
/-! SUPPORT. The stand-alone codec instructions while the block is host-owned (R110, R135, R138, R143): the state each leaves, as one
update of `afterStandAlone`, and the buffers that BUILD and DECODE load. -/

namespace Sys2Proof.Machine

/-! ### A load of a buffer from index 0 -/

/-- The cells beyond the loaded bytes read as before. -/
theorem readCell_beyond_load {s t : State} {b : Buf} {vs : List Byte} (hbuf : t.buf b = storeBytes (s.buf b) 0 vs)
    (he : t.epoch = s.epoch) {i : Nat} (hi : vs.length ≤ i) : readCell t b i = readCell s b i := by
  apply readCell_congr he
  rw [hbuf, lookup_storeBytes_outside _ _ _ _ (by omega)]

theorem frameBytes_loadFrame (f : List Byte) (s : State) : frameBytes (loadFrame f s) = f :=
  bytesOf_storeBytes (loadFrame f s) .frame s.frame f rfl

theorem readCell_loadFrame (f : List Byte) (s : State) {i : Nat} (hi : f.length ≤ i) :
    readCell (loadFrame f s) .frame i = readCell s .frame i :=
  readCell_beyond_load (s := s) (t := loadFrame f s) rfl rfl hi

theorem payloadBytes_loadDecoded (p : List Byte) (s : State) : payloadBytes (loadDecoded (.ok p) s) = p :=
  bytesOf_storeBytes (loadDecoded (.ok p) s) .payload s.payload p rfl

theorem readCell_loadDecoded (p : List Byte) (s : State) {i : Nat} (hi : p.length ≤ i) :
    readCell (loadDecoded (.ok p) s) .payload i = readCell s .payload i :=
  readCell_beyond_load (s := s) (t := loadDecoded (.ok p) s) rfl rfl hi

/-! ### The issue of a stand-alone command (R110) -/

theorem exec_accepted {i : Instr} {s : State} (h : refusalOf (encode i) s = none) (hop : cmdOp (encode i) ≠ 3) :
    exec i s = .next (operationOf i (accept (takeCommand (encode i) s))) := by
  rw [exec_eq, issueCommand_accepted _ _ s h fun h3 => absurd h3 hop]

theorem csmOfMode_ne_three (m : ChecksumMode) : csmOfMode m ≠ 3 := by
  cases m <;> decide

/-- The byte of a `CSUM`, `BUILD` or `DECODE` form meets a reason of R268 only if it is a `DECODE` whose body would not fit. -/
theorem refusalOf_packCmd {op : BitVec 3} (hop : op ≤ 2) (ack wrap val : Bool) (m : ChecksumMode) {s : State}
    (hb : s.busy = false) (hfit : op = 2 → s.flen ≤ framingNeed wrap m + pmax) :
    refusalOf (packCmd op ack wrap val (csmOfMode m)) s = none := by
  have hneed : framingBytes (packCmd op ack wrap val (csmOfMode m)) = framingNeed wrap m := by
    rw [framingBytes_eq _ m (cmdCsm_packCmd ..), cmdWrap_packCmd]
  rw [refusalOf_eq_none, cmdOp_packCmd, cmdCsm_packCmd, hneed]
  refine ⟨hb, by bv_omega, by bv_omega, fun _ => csmOfMode_ne_three m, fun h => by bv_omega, fun h _ => ?_⟩
  have := hfit h
  omega

theorem exec_codecForm {i : Instr} {op : BitVec 3} {ack wrap val : Bool} {m : ChecksumMode} {s : State}
    (henc : encode i = packCmd op ack wrap val (csmOfMode m)) (hop : op ≤ 2) (hb : s.busy = false)
    (hfit : op = 2 → s.flen ≤ framingNeed wrap m + pmax) :
    exec i s = .next (operationOf i (accept (takeCommand (encode i) s))) := by
  refine exec_accepted ?_ ?_
  · rw [henc]
    exact refusalOf_packCmd hop _ _ _ m hb hfit
  · rw [henc, cmdOp_packCmd]
    bv_omega

/-! ### CSUM (R140 to R142) -/

theorem operationOf_csumForm (m : ChecksumMode) (ack wrap val : Bool) :
    operationOf (csumForm m ack wrap val) = computeChecksum m := by
  cases m <;> rfl

/-- A `CSUM` form writes the checksum of the payload to `CK` (R135). -/
theorem exec_csumForm (m : ChecksumMode) (ack wrap val : Bool) {s : State} (hb : s.busy = false) :
    exec (csumForm m ack wrap val) s =
      .next { afterStandAlone (csumForm m ack wrap val) s with ck := (csum m (payloadBytes s)).getD 0 } := by
  rw [exec_codecForm (encode_csumForm m ack wrap val) (by decide) hb fun h => absurd h (by decide), operationOf_csumForm]
  rfl

/-- The bits of a `CSUM` byte that R111 fixes: the operation 0 and the code of the mode. -/
theorem encode_csumForm_fixed (m : ChecksumMode) (ack wrap val : Bool) :
    encode (csumForm m ack wrap val) &&& 0b11100011 = (csmOfMode m).setWidth 8 := by
  rw [encode_csumForm]
  generalize csmOfMode m = csm
  revert ack wrap val csm; decide

/-- Settles O12: mode `None` has no checksum byte. -/
theorem csumNoneWritesZero : Obligations.CsumNoneWritesZero := fun ack wrap val _ hb =>
  ⟨encode_csumForm_fixed .none ack wrap val, exec_csumForm .none ack wrap val hb⟩

/-- Settles O13: `CK` is `xor7` of the payload, whose bits are parities. -/
theorem csumXor7WritesParity : Obligations.CsumXor7WritesParity := by
  intro ack wrap val s hb
  refine ⟨encode_csumForm_fixed .xor7 ack wrap val, _, exec_csumForm .xor7 ack wrap val hb, rfl, fun k hk => ?_, ?_,
    fun hlen => ?_, fun b hp => ?_⟩
  · show (xor7 (payloadBytes s)).getLsbD k = _
    rw [getLsbD_xor7, decide_eq_true hk, Bool.and_true]
  · show (xor7 (payloadBytes s)).getLsbD 7 = false
    rw [getLsbD_xor7]
    simp
  · show xor7 (payloadBytes s) = 0
    rw [payloadBytes, hlen, bytesOf_zero]
    rfl
  · show xor7 (payloadBytes s) = b &&& 0x7F
    rw [hp]
    simp [xor7]

/-- Settles O14: `CK` is `sum8` of the payload. -/
theorem csumSum8WritesSum : Obligations.CsumSum8WritesSum := fun ack wrap val s hb =>
  ⟨encode_csumForm_fixed .sum8 ack wrap val, _, exec_csumForm .sum8 ack wrap val hb, rfl, toNat_sum8 (payloadBytes s)⟩

/-! ### BUILD (R138, R144 to R149) -/

theorem operationOf_buildForm (wrap : Bool) (m : ChecksumMode) (ack val : Bool) :
    operationOf (buildForm wrap m ack val) = runBuild wrap m := by
  cases wrap <;> cases m <;> rfl

/-- A `BUILD` form loads the frame of the payload (R138). -/
theorem exec_buildForm (wrap : Bool) (m : ChecksumMode) (ack val : Bool) {s : State} (hb : s.busy = false) :
    exec (buildForm wrap m ack val) s =
      .next (loadFrame (frameOf (payloadBytes s) wrap m) (afterStandAlone (buildForm wrap m ack val) s)) := by
  rw [exec_codecForm (encode_buildForm wrap m ack val) (by decide) hb fun h => absurd h (by decide), operationOf_buildForm]
  rfl

/-- Settles O15: the loaded bytes are the frame, and a load changes no cell beyond it. -/
theorem buildWritesFrame : Obligations.BuildWritesFrame := by
  intro wrap m ack val s hb
  refine ⟨_, exec_buildForm wrap m ack val hb, rfl, ?_, fun i hi => readCell_loadFrame _ _ hi⟩
  rw [frameBytes_loadFrame]
  exact frameOf_layout _ _ _

/-! ### DECODE (R143, R150 to R155) -/

theorem operationOf_decodeForm (wrap : Bool) (m : ChecksumMode) (ack val : Bool) :
    operationOf (decodeForm wrap m ack val) = runDecode wrap m := by
  cases wrap <;> cases m <;> rfl

theorem complete_loadDecoded (r : Except DecResult (List Byte)) (s : State) :
    complete (loadDecoded r s) = loadDecoded r (complete s) := by
  cases r <;> rfl

/-- A `DECODE` form whose body fits loads what the decoder answers (R143). -/
theorem exec_decodeForm (wrap : Bool) (m : ChecksumMode) (ack val : Bool) {s : State} (hb : s.busy = false)
    (hfit : s.flen ≤ framingNeed wrap m + pmax) :
    exec (decodeForm wrap m ack val) s =
      .next (loadDecoded (decodeFrame (frameBytes s) wrap m) (afterStandAlone (decodeForm wrap m ack val) s)) := by
  rw [exec_codecForm (encode_decodeForm wrap m ack val) (by decide) hb fun _ => hfit, operationOf_decodeForm, runDecode,
    complete_loadDecoded]
  rfl

theorem length_frameBytes (s : State) : (frameBytes s).length = s.flen := length_bytesOf _ _ _

theorem head?_frameBytes {s : State} (h : 0 < s.flen) : (frameBytes s).head? = some (readCell s .frame 0) := by
  rw [List.head?_eq_getElem?]
  exact getElem?_bytesOf s .frame s.flen 0 h

theorem getLast?_frameBytes {s : State} (h : 0 < s.flen) :
    (frameBytes s).getLast? = some (readCell s .frame (s.flen - 1)) := by
  rw [List.getLast?_eq_getElem?, length_frameBytes]
  exact getElem?_bytesOf s .frame s.flen (s.flen - 1) (by omega)

/-- Settles O16: the decoder answers the payload of the layout, and a load changes no cell beyond it. -/
theorem decodeRecoversPayload : Obligations.DecodeRecoversPayload := by
  intro wrap m ack val s p hb hf hp
  have hlen : s.flen = p.length + framingNeed wrap m := by
    rw [← length_frameBytes, (frameLayout_iff _ _ _ _).1 hf, length_frameOf]
  have hexec := exec_decodeForm wrap m ack val hb (s := s) (by omega)
  rw [(decodeFrame_eq_ok_iff_layout _ _ _ _).2 hf] at hexec
  exact ⟨_, hexec, rfl, rfl, rfl, payloadBytes_loadDecoded _ _, fun i hi => readCell_loadDecoded _ _ hi⟩

/-- The first defect of the bytes of FRAME, read cell by cell: the tests of R139 in order. -/
theorem decodeFrame_frameBytes_error {s : State} {wrap : Bool} {m : ChecksumMode}
    (hf : ∀ p, ¬ FrameLayout p wrap m (frameBytes s)) :
    decodeFrame (frameBytes s) wrap m = .error
      (if s.flen < framingNeed wrap m then .tooShort
      else if wrap = true ∧ readCell s .frame 0 ≠ startByte then .badStart
      else if wrap = true ∧ readCell s .frame (s.flen - 1) ≠ endByte then .badEnd
      else .badChecksum) := by
  have hpos : wrap = true → framingNeed wrap m ≤ s.flen → 0 < s.flen := by
    rintro rfl hneed
    simp only [framingNeed, if_true] at hneed
    omega
  have hlen := length_frameBytes s
  split_ifs with hshort hstart hend
  · exact decodeFrame_tooShort (by omega)
  all_goals
    have hneed : framingNeed wrap m ≤ (frameBytes s).length := by omega
    have hs (hw : wrap = true) := head?_frameBytes (hpos hw (by omega))
    have he (hw : wrap = true) := getLast?_frameBytes (hpos hw (by omega))
  · exact decodeFrame_badStart hneed hstart.1 (by simpa [hs hstart.1] using hstart.2)
  · have hstart' : readCell s .frame 0 = startByte := by_contra fun h => hstart ⟨hend.1, h⟩
    exact decodeFrame_badEnd hneed hend.1 (by rw [hs hend.1, hstart']) (by simpa [he hend.1] using hend.2)
  · have hstart' (hw : wrap = true) : readCell s .frame 0 = startByte := by_contra fun h => hstart ⟨hw, h⟩
    have hend' (hw : wrap = true) : readCell s .frame (s.flen - 1) = endByte := by_contra fun h => hend ⟨hw, h⟩
    exact decodeFrame_badChecksum
      ⟨hneed, fun hw => by rw [hs hw, hstart' hw], fun hw => by rw [he hw, hend' hw]⟩ hf

/-- Settles O17: the decoder answers the first defect, and then only its code is loaded. -/
theorem decodeReportsDefect : Obligations.DecodeReportsDefect := by
  intro wrap m ack val s hb hf hfit
  rw [← framingNeed_eq] at hfit ⊢
  rw [exec_decodeForm wrap m ack val hb hfit, decodeFrame_frameBytes_error hf]
  rfl

end Sys2Proof.Machine
end

section
/-! SUPPORT. The balance of opens and releases (R167, R204 (d), R285): what each row of R203 does to the two counts of the log and to
`OWNED`. -/

namespace Sys2Proof.Machine

theorem countEvent_concat (e : Event) (log : List LogEntry) (x : LogEntry) :
    countEvent e (log ++ [x]) = countEvent e log + if x.event = e then 1 else 0 := by
  simp [countEvent, List.countP_singleton]

/-- What the balance speaks of: the counts of `OpenOk` and of `Release`, and whether the transport is owned. -/
def State.opens (s : State) : Nat × Nat × Bool := (countEvent .openOk s.evt, countEvent .release s.evt, s.owned)

theorem openBalance_of_opens {s t : State} (h : openBalance s) (k : t.opens = s.opens) : openBalance t := by
  simp only [State.opens, Prod.mk.injEq] at k
  obtain ⟨hopen, hrelease, howned⟩ := k
  rw [openBalance, hopen, hrelease, howned]
  exact h

/-- The events that the balance counts. -/
def Event.marksTransport : Event → Bool
  | .openOk | .release => true
  | _ => false

theorem opens_emit (e : Event) (s : State) (he : e.marksTransport = false) : (emit e s).opens = s.opens := by
  cases e <;> simp_all [State.opens, countEvent_concat, Event.marksTransport]

theorem opens_raise (k : ErrKind) (info : FailInfo) (s : State) : (raise k info s).opens = s.opens := by
  simp [State.opens, countEvent_concat]

theorem opens_succeed (s : State) : (succeed s).opens = s.opens := rfl

theorem opens_writeOutcome (ok : Bool) (k : ErrKind) (c : SuccKind) (s : State) :
    (writeOutcome ok k c s).opens = s.opens := by
  simp [State.opens, countEvent_concat]

theorem opens_startAttempt (s : State) : (startAttempt s).opens = s.opens := by
  simp [State.opens, countEvent_concat]

theorem opens_enterRead (s : State) : (enterRead s).opens = s.opens := by
  rw [enterRead, opens_emit _ _ rfl]
  rfl

theorem opens_afterTransmission (s : State) : (afterTransmission s).opens = s.opens := by
  rcases afterTransmission_cases s with ⟨-, e⟩ | ⟨-, -, e⟩ | ⟨-, -, e⟩ <;> rw [e]
  · rfl
  · rfl
  · exact opens_enterRead s

theorem opens_takeHandshake (b : Byte) (s : State) : (takeHandshake b s).opens = s.opens := by
  rcases takeHandshake_cases b s with ⟨-, e⟩ | ⟨-, -, e⟩ | ⟨-, -, e⟩ <;> rw [e]
  · rw [opens_raise, opens_emit _ _ rfl]
  · rw [opens_enterRead, opens_emit _ _ rfl]
  · rcases append_cases b (fun s => enterRead (emit (.ackFallthrough b) s)) s with ⟨-, e⟩ | ⟨-, e⟩ <;> rw [e]
    · exact opens_raise _ _ s
    · rw [opens_enterRead, opens_emit _ _ rfl]
      rfl

theorem opens_takeResponse (stop : State → Bool) (b : Byte) (s : State) : (takeResponse stop b s).opens = s.opens := by
  rcases takeResponse_cases stop b s with ⟨-, e⟩ | ⟨-, e⟩ | ⟨-, e⟩ <;> rw [e]
  · exact opens_raise _ _ s
  · rw [opens_succeed, opens_emit _ _ rfl]
    rfl
  · rw [opens_emit _ _ rfl]
    rfl

theorem opens_delimDeadline (s : State) : (delimDeadline s).opens = s.opens := by
  rcases delimDeadline_cases s with ⟨-, e⟩ | ⟨-, e⟩ <;> rw [e]
  · rw [opens_raise, opens_emit _ _ rfl]
    rfl
  · rw [opens_succeed, opens_emit _ _ rfl]

/-- Giving up the transport adds a `Release` exactly if it was owned (R285). -/
theorem openBalance_release {s : State} (h : openBalance s) : openBalance (release s) := by
  rcases Bool.eq_false_or_eq_true s.owned with ho | ho <;>
    simpa [openBalance, ho, countEvent_concat] using h

theorem openBalance_afterFailure {s : State} (h : openBalance s) : openBalance (afterFailure s) := by
  have idle (n : BitVec 8) : openBalance { release s with ctlLine := false, attempt := n } :=
    openBalance_of_opens (openBalance_release h) rfl
  rcases afterFailure_cases s with ⟨-, e⟩ | ⟨-, e⟩ <;> rw [e]
  · exact openBalance_of_opens (idle _) (opens_startAttempt _)
  · exact openBalance_of_opens (idle s.attempt) (opens_writeOutcome _ _ _ _)

theorem openBalance_finishSuccess {s : State} (h : openBalance s) : openBalance (finishSuccess s) := by
  rcases finishSuccess_cases s with ⟨-, e⟩ | ⟨-, e⟩ <;> rw [e] <;> refine openBalance_of_opens (openBalance_release h) ?_
  · rw [opens_writeOutcome, opens_emit _ _ rfl]
  · exact opens_writeOutcome _ _ _ _

/-- Only the grant opens, and only `FAILED` and `RELEASE` give up the transport; every other row leaves the balance's terms alone. -/
theorem engineRow_opens {s t : State} (row : EngineRow s t) :
    t.opens = s.opens ∨ (s.st = .opening ∧ t = emit .openOk { s with tpAns := none, owned := true, st := .purge }) ∨
    t = afterFailure s ∨ t = finishSuccess s := by
  cases row with
  | openGranted hst => exact .inr (.inl ⟨hst, rfl⟩)
  | failed => exact .inr (.inr (.inl rfl))
  | release => exact .inr (.inr (.inr rfl))
  | openFailed => exact .inl (by rw [opens_raise, opens_emit _ _ rfl]; rfl)
  | fault | overrun | txTimeout => exact .inl (opens_raise _ _ _)
  | purge => exact .inl (by rw [doPurge, opens_emit _ _ rfl]; exact opens_emit _ _ rfl)
  | ctl | settle | burstQuiet | quietLoop => exact .inl rfl
  | txDone => exact .inl (by rw [opens_afterTransmission, opens_emit _ _ rfl])
  | txByte => exact .inl (opens_emit _ (txPut _ s) rfl)
  | handshake b rest => exact .inl (opens_takeHandshake b _)
  | ackTimeout => exact .inl (by rw [opens_raise, opens_emit _ _ rfl])
  | countByte b rest | delimByte b rest | burstByte b rest => exact .inl (opens_takeResponse _ b _)
  | countTimeout =>
    refine .inl ?_
    rw [shortRead, opens_raise, opens_emit _ _ rfl]
    exact opens_emit _ _ rfl
  | delimTimeout => exact .inl (opens_delimDeadline s)
  | burstEnd | quietStop => exact .inl (by rw [opens_succeed, opens_emit _ _ rfl])

theorem engineRow_keeps_openBalance {s t : State} (ho : OwnershipInv s) (h : openBalance s) (row : EngineRow s t) :
    openBalance t := by
  rcases engineRow_opens row with k | ⟨hst, rfl⟩ | rfl | rfl
  · exact openBalance_of_opens h k
  · have hfree : s.owned = false := ho.notOwned (.inr (.inl hst))
    have hequal : countEvent .openOk s.evt = countEvent .release s.evt := by simpa [openBalance, hfree] using h
    simp [openBalance, countEvent_concat, hequal]
  · exact openBalance_afterFailure h
  · exact openBalance_finishSuccess h

theorem openBalance_of_sameEngine {s t : State} (h : openBalance s) (k : SameEngine s t) : openBalance t :=
  openBalance_of_opens h (by rw [State.opens, k.evt, k.owned]; rfl)

/-- Settles O50: a grant is taken only while the transport is not owned, and a release is logged only while it is. -/
theorem everyOpenIsReleased : Obligations.EveryOpenIsReleased := fun s t ho h hs =>
  step_keeps OwnershipInv openBalance (fun _ _ => openBalance_of_sameEngine)
    (fun _ _ h => h.of_eq rfl) (fun _ h => h.of_eq rfl)
    (fun _ _ => engineRow_keeps_openBalance)
    (fun _ c m _ h _ => openBalance_of_opens h (by simp [State.opens, countEvent_concat]))
    (fun _ => rfl) s t ho h hs

end Sys2Proof.Machine
end

section
/-! SUPPORT. The rows of R203 as steps of the machine: in a state that no fault and no overrun ends, the engine moves as its state's
rows say, and one turn of it is that move. -/

namespace Sys2Proof.Machine

theorem expired_of_le {d : Time} {s : State} (h : d ≤ s.now) : expired d s = true := by
  simpa [expired] using h

theorem append_of_lt {b : Byte} {rest : State → State} {s : State} (h : s.tlen < tmax) :
    append b rest s = rest { s with trace := store s.trace s.tlen b, tlen := s.tlen + 1 } :=
  if_neg h.ne

theorem append_of_full {b : Byte} {rest : State → State} {s : State} (h : s.tlen = tmax) :
    append b rest s = raise .transportFault .traceOverflow s :=
  if_pos h

/-- A kept byte ends the read if `stop` says so of the state that has it (R189, R193, R197). -/
theorem takeResponse_of_lt {stop : State → Bool} {b : Byte} {s : State} (h : s.tlen < tmax) :
    takeResponse stop b s =
      { s with
        trace := store s.trace s.tlen b, tlen := s.tlen + 1, evt := s.evt ++ [⟨s.now, .rx b⟩]
        st := if stop { s with trace := store s.trace s.tlen b, tlen := s.tlen + 1 } = true then .release else s.st } := by
  rw [takeResponse, append_of_lt h]
  split <;> rfl

/-- An event followed by the failure of the attempt (R270, R289). -/
theorem raise_emit (k : ErrKind) (info : FailInfo) (e : Event) (s : State) :
    raise k info (emit e s) =
      { s with lastErr := k, st := .failed, evt := s.evt ++ [⟨s.now, e⟩, ⟨s.now, .attemptFail k info⟩] } := by
  simp [raise, emit]

theorem transmitByte_eq (s : State) :
    transmitByte s =
      { s with
        txByte := readCell s .frame s.txi, txValid := true, txStream := s.txStream ++ [readCell s .frame s.txi]
        txi := s.txi + 1, dl := s.now + s.l.cp.wrto, evt := s.evt ++ [⟨s.now, .tx (readCell s .frame s.txi)⟩] } := rfl

/-! ### The rows by state -/

section
variable {s : State}

theorem engineRows_fault (hst : s.st.faultVisible = true) (hf : s.tpFault = true) :
    engineRows s = some (raise .transportFault .ioFault { s with tpFault := false }) := by
  cases h : s.st <;> simp [h, EngState.faultVisible] at hst <;> simp [engineRows, h, onFault, hf]

theorem engineRows_overrun (hst : s.st.reading = true) (hf : s.tpFault = false) (ho : s.rxovr = true) :
    engineRows s = some (raise .transportFault .rxOverrun s) := by
  cases h : s.st <;> simp [h, EngState.reading] at hst <;> simp [engineRows, h, onFault_of_clear _ hf, onOverrun, ho]

theorem engineRows_granted (hst : s.st = .opening) (ha : s.tpAns = some .grant) :
    engineRows s = some (emit .openOk { s with tpAns := none, owned := true, st := .purge }) := by
  simp [engineRows, hst, stepOpening, ha]

theorem engineRows_openFailed (hst : s.st = .opening) (ha : s.tpAns = some .fail) :
    engineRows s = some (raise .transportUnavailable .none (emit .openFail { s with tpAns := none })) := by
  simp [engineRows, hst, stepOpening, ha]

theorem engineRows_failed_eq (hst : s.st = .failed) : engineRows s = some (afterFailure s) := by simp [engineRows, hst]

theorem engineRows_release_eq (hst : s.st = .release) : engineRows s = some (finishSuccess s) := by simp [engineRows, hst]

variable (hf : s.tpFault = false)
include hf

theorem engineRows_purge_eq (hst : s.st = .purge) : engineRows s = some (doPurge s) := by
  simp [engineRows, hst, onFault_of_clear _ hf]

theorem engineRows_ctl_expired (hst : s.st = .ctl) (hd : s.dl ≤ s.now) :
    engineRows s = some { s with ctlLine := !s.ctlLine, dl := s.now + s.cfg.tSettle, st := .settle } := by
  simp [engineRows, hst, onFault_of_clear _ hf, stepCtl, expired_of_le hd]

theorem engineRows_settle_expired (hst : s.st = .settle) (hd : s.dl ≤ s.now) :
    engineRows s = some { s with txi := 0, dl := s.now + s.l.cp.wrto, st := .tx } := by
  simp [engineRows, hst, onFault_of_clear _ hf, stepSettle, expired_of_le hd]

theorem engineRows_tx_done (hst : s.st = .tx) (hi : s.txi = s.flen) :
    engineRows s = some (afterTransmission (emit (.txDone s.flen) s)) := by
  simp [engineRows, hst, onFault_of_clear _ hf, stepTx, hi]

theorem engineRows_tx_ready (hst : s.st = .tx) (hi : s.txi < s.flen) (hr : s.txReady = true) :
    engineRows s = some (transmitByte s) := by
  simp [engineRows, hst, onFault_of_clear _ hf, stepTx, hi, hi.ne, hr]

theorem engineRows_tx_expired (hst : s.st = .tx) (hi : s.txi < s.flen) (hr : s.txReady = false) (hd : s.dl ≤ s.now) :
    engineRows s = some (raise .transportFault .writeTimeout s) := by
  simp [engineRows, hst, onFault_of_clear _ hf, stepTx, hi, hi.ne, hr, expired_of_le hd]

variable (ho : s.rxovr = false)
include ho

theorem engineRows_ackwait_byte {b : Byte} {rest : List Byte} (hst : s.st = .ackwait) (hq : s.rxq = b :: rest) :
    engineRows s = some (takeHandshake b { s with rxq := rest }) := by
  simp [engineRows, hst, onFault_of_clear _ hf, onOverrun_of_clear _ ho, stepAckwait, hq]

theorem engineRows_ackwait_expired (hst : s.st = .ackwait) (hq : s.rxq = []) (hd : s.dl ≤ s.now) :
    engineRows s = some (raise .handshakeTimeout .none (emit .ackTimeout s)) := by
  simp [engineRows, hst, onFault_of_clear _ hf, onOverrun_of_clear _ ho, stepAckwait, hq, expired_of_le hd]

theorem engineRows_rdCount_byte {b : Byte} {rest : List Byte} (hst : s.st = .rdCount) (hq : s.rxq = b :: rest) :
    engineRows s = some (takeResponse (fun u => u.tlen == u.l.expbytes.toNat) b { s with rxq := rest }) := by
  simp [engineRows, hst, onFault_of_clear _ hf, onOverrun_of_clear _ ho, stepRdCount, hq]

theorem engineRows_rdCount_expired (hst : s.st = .rdCount) (hq : s.rxq = []) (hd : s.dl ≤ s.now) :
    engineRows s = some (shortRead s) := by
  simp [engineRows, hst, onFault_of_clear _ hf, onOverrun_of_clear _ ho, stepRdCount, hq, expired_of_le hd]

theorem engineRows_rdDelim_byte {b : Byte} {rest : List Byte} (hst : s.st = .rdDelim) (hq : s.rxq = b :: rest) :
    engineRows s = some (takeResponse (fun _ => b == endByte) b { s with rxq := rest }) := by
  simp [engineRows, hst, onFault_of_clear _ hf, onOverrun_of_clear _ ho, stepRdDelim, hq]

theorem engineRows_rdDelim_expired (hst : s.st = .rdDelim) (hq : s.rxq = []) (hd : s.dl ≤ s.now) :
    engineRows s = some (delimDeadline s) := by
  simp [engineRows, hst, onFault_of_clear _ hf, onOverrun_of_clear _ ho, stepRdDelim, hq, expired_of_le hd]

theorem engineRows_rdBurst_byte {b : Byte} {rest : List Byte} (hst : s.st = .rdBurst) (hq : s.rxq = b :: rest) :
    engineRows s = some (takeResponse (fun _ => false) b { s with rxq := rest }) := by
  simp [engineRows, hst, onFault_of_clear _ hf, onOverrun_of_clear _ ho, stepRdBurst, hq]

theorem engineRows_rdBurst_expired (hst : s.st = .rdBurst) (hq : s.rxq = []) (hd : s.dl ≤ s.now) :
    engineRows s = some (succeed (emit .readDeadline s)) := by
  simp [engineRows, hst, onFault_of_clear _ hf, onOverrun_of_clear _ ho, stepRdBurst, hq, expired_of_le hd]

theorem engineRows_rdBurst_quiet (hst : s.st = .rdBurst) (hq : s.rxq = []) (hd : s.now < s.dl) :
    engineRows s = some { s with qdl := minTime (s.now + s.cfg.tQuiet) s.dl, st := .rdQuiet } := by
  simp [engineRows, hst, onFault_of_clear _ hf, onOverrun_of_clear _ ho, stepRdBurst, hq, expired_of_lt hd]

theorem engineRows_rdQuiet_expired (hst : s.st = .rdQuiet) (hd : s.qdl ≤ s.now) :
    engineRows s = some (if s.cfg.burstStopOnQuiet = true ∧ 0 < s.tlen ∧ s.rxq = [] then succeed (emit .quietStop s)
      else { s with st := .rdBurst }) := by
  simp only [engineRows, hst, onFault_of_clear _ hf, onOverrun_of_clear _ ho, stepRdQuiet, expired_of_le hd, if_true]
  split <;> rfl

end

/-! ### One turn of the engine -/

/-- A turn of the engine takes the enabled row, with `tx_valid` down before it. -/
theorem turn_engine_eq {s t : State} (hr : s.resetHeld = false) (h : engineRows { s with txValid := false } = some t) :
    s.turn .engine = .next t := by
  rw [turn_eq .engine s hr]
  simp [applyAct, engineMove, engineStep, h]

theorem turn_engine_of_row {s t u : State} (hr : s.resetHeld = false) (h : engineRows { s with txValid := false } = some t)
    (hu : { t with txValid := s.txValid } = u) :
    ∃ t, s.turn .engine = .next t ∧ { t with txValid := s.txValid } = u :=
  ⟨t, turn_engine_eq hr h, hu⟩

/-- A turn of the engine that keeps a byte: the trace reads as before but for the byte at its end (R161). -/
theorem turn_engine_of_byte {s t u : State} {b : Byte} (hr : s.resetHeld = false)
    (h : engineRows { s with txValid := false } = some t)
    (hkept : (t.trace, t.tlen, t.epoch) = (store s.trace s.tlen b, s.tlen + 1, s.epoch))
    (hu : { t with txValid := s.txValid, trace := s.trace } = u) :
    ∃ t, s.turn .engine = .next t ∧ { t with txValid := s.txValid, trace := s.trace } = u ∧
      traceBytes t = traceBytes s ++ [b] ∧ ∀ i, i ≠ s.tlen → readCell t .trace i = readCell s .trace i := by
  simp only [Prod.mk.injEq] at hkept
  obtain ⟨htrace, hlen, hepoch⟩ := hkept
  refine ⟨t, turn_engine_eq hr h, hu, traceBytes_append s t b htrace hlen hepoch, fun i hi => readCell_congr hepoch ?_⟩
  rw [State.buf, State.buf, htrace, lookup_store_other _ _ hi]

end Sys2Proof.Machine
end

section
/-! SUPPORT. The attempt before the response (R166 to R176): the answer to the open request, the control pulse, the transmission, and
the entry into the read phase; and the faults and overruns that come before any of it (R174, R290). -/

namespace Sys2Proof.Machine

/-- Settles O25: rows T1 and T2. -/
theorem openAnswerIsTaken : Obligations.OpenAnswerIsTaken := by
  intro s hr hst
  refine ⟨fun ha => turn_engine_of_row hr (engineRows_granted hst ha) rfl,
    fun ha => turn_engine_of_row hr (engineRows_openFailed hst ha) ?_,
    fun ha => turn_engine_of_none (engineRows_opening (s := { s with txValid := false }) hst ha)⟩
  rw [raise_emit]

/-- Settles O26: rows T5 to T7. -/
theorem purgePulseSettle : Obligations.PurgePulseSettle := by
  intro s hr hf
  refine ⟨fun hst => turn_engine_of_row hr (engineRows_purge_eq hf hst) ?_,
    fun hst hd => turn_engine_of_row hr (engineRows_ctl_expired hf hst hd) rfl,
    fun hst hd => turn_engine_of_row hr (engineRows_settle_expired hf hst hd) rfl⟩
  simp [doPurge, emit, rxPurge]

/-- Settles O27: rows T9 and T10. -/
theorem transmitByteOrTimeOut : Obligations.TransmitByteOrTimeOut := by
  intro s hr hst hf hi
  exact ⟨fun hready => ⟨_, turn_engine_eq hr (engineRows_tx_ready hf hst hi hready), rfl, by rw [transmitByte_eq]; rfl⟩,
    fun hready hd => turn_engine_of_row hr (engineRows_tx_expired hf hst hi hready hd) rfl⟩

/-- Settles O30: rows T3 and T4, which stand before every row of their states. -/
theorem faultAndOverrunComeFirst : Obligations.FaultAndOverrunComeFirst := fun _ hr =>
  ⟨fun hst hf => turn_engine_of_row hr (engineRows_fault hst hf) rfl,
    fun hst hf ho => turn_engine_of_row hr (engineRows_overrun hst hf ho) rfl⟩

/-! ### The dispatch after the last byte (R172, R176, R186) -/

section
variable {s : State}

theorem enterRead_count (hn : s.l.expbytes ≠ 0) :
    enterRead s =
      { s with
        dl := s.now + s.l.rdto, st := if s.tlen = s.l.expbytes.toNat then .release else .rdCount
        evt := s.evt ++ [⟨s.now, .readStart .count (s.now + s.l.rdto)⟩] } := by
  have hmode : readMode s.l = .count := if_pos hn
  simp only [enterRead, emit, readEntryState, hmode]

theorem enterRead_delim (hn : s.l.expbytes = 0) (hw : s.l.wrap = true) :
    enterRead s =
      { s with
        dl := s.now + s.l.rdto
        st := if 0 < s.tlen ∧ readCell s .trace (s.tlen - 1) = endByte then .release else .rdDelim
        evt := s.evt ++ [⟨s.now, .readStart .delim (s.now + s.l.rdto)⟩] } := by
  have hmode : readMode s.l = .delim := by simp [readMode, hn, hw]
  simp only [enterRead, emit, readEntryState, hmode]

theorem enterRead_burst (hn : s.l.expbytes = 0) (hw : s.l.wrap = false) :
    enterRead s =
      { s with
        dl := s.now + s.l.rdto, st := .rdBurst
        evt := s.evt ++ [⟨s.now, .readStart .burst (s.now + s.l.rdto)⟩] } := by
  have hmode : readMode s.l = .burst := by simp [readMode, hn, hw]
  simp only [enterRead, emit, readEntryState, hmode]

end

/-- Settles O29: the three modes of R176. -/
theorem enterReadSelectsState : Obligations.EnterReadSelectsState := fun _ =>
  ⟨enterRead_count, enterRead_delim, enterRead_burst⟩

section
variable {s : State}

theorem txDone_ack (ha : s.l.ack = true) :
    afterTransmission (emit (.txDone s.flen) s) =
      { s with
        dl := s.now + minTime s.l.cp.rdto s.cfg.tAckMax, st := .ackwait, evt := s.evt ++ [⟨s.now, .txDone s.flen⟩] } :=
  if_pos ha

theorem txDone_sentOnly (ha : s.l.ack = false) (hn : s.l.expbytes = 0) :
    afterTransmission (emit (.txDone s.flen) s) =
      { s with st := .release, evt := s.evt ++ [⟨s.now, .txDone s.flen⟩] } := by
  rw [afterTransmission, emit_l, if_neg (by simp [ha]), if_pos hn]
  rfl

theorem txDone_count (ha : s.l.ack = false) (hn : s.l.expbytes ≠ 0) :
    afterTransmission (emit (.txDone s.flen) s) =
      { s with
        dl := s.now + s.l.rdto, st := if s.tlen = s.l.expbytes.toNat then .release else .rdCount
        evt := s.evt ++ [⟨s.now, .txDone s.flen⟩, ⟨s.now, .readStart .count (s.now + s.l.rdto)⟩] } := by
  rw [afterTransmission, emit_l, if_neg (by simp [ha]), if_neg hn,
    enterRead_count (s := emit (.txDone s.flen) s) hn]
  simp [emit]
  rfl

end

/-- Settles O28: row T8, by the three branches of the dispatch. -/
theorem dispatchAfterTransmission : Obligations.DispatchAfterTransmission := by
  intro s hr hst hf hi
  have row := engineRows_tx_done (s := { s with txValid := false }) hf hst hi
  exact ⟨fun hack => turn_engine_of_row hr (row.trans (congrArg some (txDone_ack hack))) rfl,
    fun hack hn => turn_engine_of_row hr (row.trans (congrArg some (txDone_sentOnly hack hn))) rfl,
    fun hack hn => turn_engine_of_row hr (row.trans (congrArg some (txDone_count hack hn))) rfl⟩

end Sys2Proof.Machine
end

section
/-! SUPPORT. The response (R180 to R197): the handshake byte, the three ways of reading, and the byte that finds the trace full. -/

namespace Sys2Proof.Machine

/-! ### The entry into the read phase (R186, R187) -/

theorem readEntryState_congr {s t : State} (h : (t.l, t.tlen, t.trace, t.epoch) = (s.l, s.tlen, s.trace, s.epoch)) :
    readEntryState t = readEntryState s := by
  simp only [Prod.mk.injEq] at h
  obtain ⟨l, tlen, trace, epoch⟩ := h
  have cell (i : Nat) : readCell t .trace i = readCell s .trace i :=
    readCell_congr epoch (by rw [State.buf, State.buf, trace])
  simp only [readEntryState, l, tlen, cell]

theorem enterRead_emit (e : Event) (s : State) :
    enterRead (emit e s) =
      { s with
        dl := s.now + s.l.rdto, st := readEntryState s
        evt := s.evt ++ [⟨s.now, e⟩, ⟨s.now, .readStart (readMode s.l) (s.now + s.l.rdto)⟩] } := by
  have hentry : readEntryState (emit e s) = readEntryState s := readEntryState_congr rfl
  rw [enterRead, hentry]
  simp [emit]

/-- With the fall-through byte kept, the read it completes is not entered (R187). -/
theorem readEntryState_kept (b : Byte) (s : State) :
    readEntryState { s with trace := store s.trace s.tlen b, tlen := s.tlen + 1 } =
      if s.l.expbytes ≠ 0 then (if s.tlen + 1 = s.l.expbytes.toNat then .release else .rdCount)
      else if s.l.wrap = true then (if b = endByte then .release else .rdDelim)
      else .rdBurst := by
  have hlast : readCell { s with trace := store s.trace s.tlen b, tlen := s.tlen + 1 } .trace s.tlen = b :=
    readCell_of_lookup (lookup_store_same _ _ _)
  unfold readEntryState readMode
  split_ifs <;> simp_all

/-! ### The handshake byte (R181, R182, R184) -/

theorem takeHandshake_nak (s : State) :
    takeHandshake nakByte s =
      { s with
        lastErr := .handshakeRejected, st := .failed
        evt := s.evt ++ [⟨s.now, .nak⟩, ⟨s.now, .attemptFail .handshakeRejected .none⟩] } := by
  rw [takeHandshake, if_pos rfl, raise_emit]

theorem takeHandshake_ack (s : State) :
    takeHandshake ackByte s =
      { s with
        dl := s.now + s.l.rdto, st := readEntryState s
        evt := s.evt ++ [⟨s.now, .ackOk⟩, ⟨s.now, .readStart (readMode s.l) (s.now + s.l.rdto)⟩] } := by
  rw [takeHandshake, if_neg (by decide), if_pos rfl, enterRead_emit]

section
variable {s : State} {b : Byte} (hnak : b ≠ nakByte) (hack : b ≠ ackByte)
include hnak hack

theorem takeHandshake_other (hl : s.tlen < tmax) :
    takeHandshake b s =
      { s with
        trace := store s.trace s.tlen b, tlen := s.tlen + 1, dl := s.now + s.l.rdto
        st :=
          if s.l.expbytes ≠ 0 then (if s.tlen + 1 = s.l.expbytes.toNat then .release else .rdCount)
          else if s.l.wrap = true then (if b = endByte then .release else .rdDelim)
          else .rdBurst
        evt := s.evt ++
          [⟨s.now, .ackFallthrough b⟩, ⟨s.now, .readStart (readMode s.l) (s.now + s.l.rdto)⟩] } := by
  rw [takeHandshake, if_neg hnak, if_neg hack, append_of_lt hl, enterRead_emit, readEntryState_kept]

theorem takeHandshake_full (hl : s.tlen = tmax) : takeHandshake b s = raise .transportFault .traceOverflow s := by
  rw [takeHandshake, if_neg hnak, if_neg hack, append_of_full hl]

end

/-- Settles O31: rows T11 to T14, by the value of the byte. -/
theorem handshakeByte : Obligations.HandshakeByte := by
  intro s hr hst hf ho
  refine ⟨fun rest hq => ?_, fun rest hq => ?_, fun b rest hq hnak hack hl => ?_, fun hq hd => ?_⟩
  · have row := engineRows_ackwait_byte (s := { s with txValid := false }) hf ho hst hq
    exact turn_engine_of_row hr (row.trans (congrArg some (takeHandshake_nak _))) rfl
  · have row := engineRows_ackwait_byte (s := { s with txValid := false }) hf ho hst hq
    have hentry : readEntryState { s with txValid := false, rxq := rest } = readEntryState s := readEntryState_congr rfl
    exact turn_engine_of_row hr (row.trans (congrArg some (takeHandshake_ack _))) (by rw [hentry])
  · have row := engineRows_ackwait_byte (s := { s with txValid := false }) hf ho hst hq
    exact turn_engine_of_byte hr (row.trans (congrArg some (takeHandshake_other hnak hack hl))) rfl rfl
  · have row := engineRows_ackwait_expired (s := { s with txValid := false }) hf ho hst hq hd
    exact turn_engine_of_row hr (row.trans (congrArg some (raise_emit _ _ _ _))) rfl

/-! ### The counted read (R189, R191, R192) -/

section
variable {s : State} {b : Byte}

theorem takeResponse_count (hst : s.st = .rdCount) (hl : s.tlen < tmax) :
    takeResponse (fun u => u.tlen == u.l.expbytes.toNat) b s =
      { s with
        trace := store s.trace s.tlen b, tlen := s.tlen + 1, evt := s.evt ++ [⟨s.now, .rx b⟩]
        st := if s.tlen + 1 = s.l.expbytes.toNat then .release else .rdCount } := by
  rw [takeResponse_of_lt hl]
  simp [hst]

/-- With the queue empty, the purge of a short read changes nothing. -/
theorem shortRead_of_empty (hq : s.rxq = []) (ho : s.rxovr = false) :
    shortRead s =
      { s with
        expn := s.l.expbytes, gotn := s.tlen, lastErr := .readTimeout, st := .failed
        evt := s.evt ++ [⟨s.now, .shortRead s.l.expbytes s.tlen⟩, ⟨s.now, .purge⟩,
          ⟨s.now, .attemptFail .readTimeout (.counts s.l.expbytes s.tlen)⟩] } := by
  simp [shortRead, raise, emit, rxPurge, hq, ho]

end

/-- Settles O32: rows T15 and T16. -/
theorem countedRead : Obligations.CountedRead := by
  intro s hr hst hf ho
  refine ⟨fun b rest hq hl => ?_, fun hq hd => ?_⟩
  · have row := engineRows_rdCount_byte (s := { s with txValid := false }) hf ho hst hq
    exact turn_engine_of_byte hr (row.trans (congrArg some (takeResponse_count hst hl))) rfl rfl
  · have row := engineRows_rdCount_expired (s := { s with txValid := false }) hf ho hst hq hd
    exact turn_engine_of_row hr (row.trans (congrArg some (shortRead_of_empty hq ho))) rfl

/-! ### The delimiter read (R193, R194) -/

section
variable {s : State} {b : Byte}

theorem takeResponse_delim (hst : s.st = .rdDelim) (hl : s.tlen < tmax) :
    takeResponse (fun _ => b == endByte) b s =
      { s with
        trace := store s.trace s.tlen b, tlen := s.tlen + 1, evt := s.evt ++ [⟨s.now, .rx b⟩]
        st := if b = 0x03 then .release else .rdDelim } := by
  rw [takeResponse_of_lt hl]
  simp [hst, endByte]

theorem delimDeadline_fails (hc : s.cfg.delimTimeoutFails = true) :
    delimDeadline s =
      { s with
        expn := 0, gotn := s.tlen, lastErr := .readTimeout, st := .failed
        evt := s.evt ++ [⟨s.now, .readDeadline⟩, ⟨s.now, .attemptFail .readTimeout (.counts 0 s.tlen)⟩] } := by
  rw [delimDeadline, if_pos hc, raise_emit]

theorem delimDeadline_succeeds (hc : s.cfg.delimTimeoutFails = false) :
    delimDeadline s = { s with st := .release, evt := s.evt ++ [⟨s.now, .readDeadline⟩] } := by
  rw [delimDeadline, if_neg (by simp [hc])]
  rfl

end

/-- Settles O33: rows T17 and T18. -/
theorem delimiterRead : Obligations.DelimiterRead := by
  intro s hr hst hf ho
  refine ⟨fun b rest hq hl => ?_, fun hq hd hc => ?_, fun hq hd hc => ?_⟩
  · have row := engineRows_rdDelim_byte (s := { s with txValid := false }) hf ho hst hq
    exact turn_engine_of_byte hr (row.trans (congrArg some (takeResponse_delim hst hl))) rfl rfl
  · have row := engineRows_rdDelim_expired (s := { s with txValid := false }) hf ho hst hq hd
    exact turn_engine_of_row hr (row.trans (congrArg some (delimDeadline_succeeds hc))) rfl
  · have row := engineRows_rdDelim_expired (s := { s with txValid := false }) hf ho hst hq hd
    exact turn_engine_of_row hr (row.trans (congrArg some (delimDeadline_fails hc))) rfl

/-! ### The burst read (R197) -/

theorem takeResponse_burst {s : State} {b : Byte} (hl : s.tlen < tmax) :
    takeResponse (fun _ => false) b s =
      { s with trace := store s.trace s.tlen b, tlen := s.tlen + 1, evt := s.evt ++ [⟨s.now, .rx b⟩] } :=
  takeResponse_of_lt hl

/-- Settles O34: rows T19 to T22. -/
theorem burstRead : Obligations.BurstRead := by
  intro s hr hf ho
  refine ⟨fun b rest hst hq hl => ?_, fun hst hq hd => ?_, fun hst hq hd => ?_, fun hst hd hc => ?_, fun hst hd hc => ?_⟩
  · have row := engineRows_rdBurst_byte (s := { s with txValid := false }) hf ho hst hq
    exact turn_engine_of_byte hr (row.trans (congrArg some (takeResponse_burst hl))) rfl rfl
  · exact turn_engine_of_row hr (engineRows_rdBurst_expired hf ho hst hq hd) rfl
  · exact turn_engine_of_row hr (engineRows_rdBurst_quiet hf ho hst hq hd) rfl
  · have row := engineRows_rdQuiet_expired (s := { s with txValid := false }) hf ho hst hd
    exact turn_engine_of_row hr (row.trans (congrArg some (if_pos hc))) rfl
  · have row := engineRows_rdQuiet_expired (s := { s with txValid := false }) hf ho hst hd
    exact turn_engine_of_row hr (row.trans (congrArg some (if_neg hc))) rfl

/-! ### A full trace (R161, R290) -/

theorem takeResponse_full {stop : State → Bool} {b : Byte} {s : State} (hl : s.tlen = tmax) :
    takeResponse stop b s = raise .transportFault .traceOverflow s :=
  append_of_full hl

theorem engineRows_overflow {s : State} {b : Byte} {rest : List Byte} (hf : s.tpFault = false) (ho : s.rxovr = false)
    (hl : s.tlen = tmax) (hq : s.rxq = b :: rest)
    (hst : s.st = .rdCount ∨ s.st = .rdDelim ∨ s.st = .rdBurst ∨ (s.st = .ackwait ∧ b ≠ nakByte ∧ b ≠ ackByte)) :
    engineRows s = some (raise .transportFault .traceOverflow { s with rxq := rest }) := by
  rcases hst with hst | hst | hst | ⟨hst, hnak, hack⟩
  · exact (engineRows_rdCount_byte hf ho hst hq).trans (congrArg some (takeResponse_full hl))
  · exact (engineRows_rdDelim_byte hf ho hst hq).trans (congrArg some (takeResponse_full hl))
  · exact (engineRows_rdBurst_byte hf ho hst hq).trans (congrArg some (takeResponse_full hl))
  · exact (engineRows_ackwait_byte hf ho hst hq).trans (congrArg some (takeHandshake_full hnak hack hl))

/-- Settles O35: in each state that keeps bytes, the popped byte meets the overflow of `append`. -/
theorem traceOverflowRaises : Obligations.TraceOverflowRaises := fun _ _ _ hr hf ho hl hq hst =>
  turn_engine_of_row hr (engineRows_overflow hf ho hl hq hst) rfl

end Sys2Proof.Machine
end

section
/-! SUPPORT. The end of an attempt (R199, R200, R271): what the validator asks of the trace (R221, R222, R225), the outcome written in
`RELEASE`, and the retry or the not-ok outcome of `FAILED`. -/

namespace Sys2Proof.Machine

/-! ### The validator (R221, R222, R225) -/

theorem prefixMatch_iff (t x : List Byte) : prefixMatch t x = true ↔ x <+: t := by
  induction t generalizing x with
  | nil => cases x <;> simp [prefixMatch]
  | cons a t ih =>
    cases x with
    | nil => simp [prefixMatch]
    | cons b x =>
      simp only [prefixMatch, Bool.and_eq_true, beq_iff_eq, ih, List.cons_prefix_cons]
      exact and_congr eq_comm Iff.rfl

/-- The windows of the trace are the prefixes of its suffixes. -/
theorem containsRun_iff (t y : List Byte) : containsRun t y = true ↔ ∃ p ≤ t.length, y <+: t.drop p := by
  induction t with
  | nil => simp [containsRun]
  | cons a t ih =>
    rw [containsRun, Bool.or_eq_true, prefixMatch_iff, ih]
    constructor
    · rintro (h | ⟨p, hp, h⟩)
      · exact ⟨0, Nat.zero_le _, h⟩
      · exact ⟨p + 1, by simpa using hp, h⟩
    · rintro ⟨p, hp, h⟩
      cases p with
      | zero => exact .inl h
      | succ p => exact .inr ⟨p, by simpa using hp, h⟩

/-- A buffer's first bytes stand at an index of another buffer, cell by cell. -/
theorem bytesOf_prefix_drop (s : State) (b c : Buf) {n m p : Nat} (hp : p ≤ m) :
    bytesOf s c n <+: (bytesOf s b m).drop p ↔ p + n ≤ m ∧ ∀ j < n, readCell s b (p + j) = readCell s c j := by
  have cells (j : Nat) (hj : j < n) (hm : p + j < m) :
      ((bytesOf s b m).drop p)[j]? = some ((bytesOf s c n)[j]'(by simpa using hj)) ↔
        readCell s b (p + j) = readCell s c j := by
    rw [List.getElem?_drop, getElem?_bytesOf s b m _ hm]
    simp [bytesOf]
  rw [List.prefix_iff_getElem?]
  simp only [length_bytesOf]
  constructor
  · intro h
    have hlen : p + n ≤ m := by
      by_contra hlt
      have := h (m - p) (by omega)
      rw [List.getElem?_eq_none (by simp)] at this
      cases this
    exact ⟨hlen, fun j hj => (cells j hj (by omega)).1 (h j hj)⟩
  · rintro ⟨hlen, h⟩ j hj
    exact (cells j hj (by omega)).2 (h j hj)

theorem prefixMatch_iff_prefixHolds (s : State) : prefixMatch (traceBytes s) (vpfxBytes s) = true ↔ prefixHolds s := by
  have h := bytesOf_prefix_drop s .trace .vpfx (n := s.vplen) (Nat.zero_le s.tlen)
  simp only [List.drop_zero, Nat.zero_add] at h
  exact (prefixMatch_iff _ _).trans h

theorem containsRun_iff_containmentHolds (s : State) :
    containsRun (traceBytes s) (vsubBytes s) = true ↔ containmentHolds s := by
  rw [containsRun_iff, traceBytes, length_bytesOf]
  constructor
  · rintro ⟨p, hp, h⟩
    exact ⟨p, (bytesOf_prefix_drop s .trace .vsub hp).1 h⟩
  · rintro ⟨p, hp, h⟩
    exact ⟨p, by omega, (bytesOf_prefix_drop s .trace .vsub (by omega)).2 ⟨hp, h⟩⟩

theorem validate_iff (s : State) : validate s = true ↔ validationPasses s := by
  rw [validationPasses, ← prefixMatch_iff_prefixHolds, ← containsRun_iff_containmentHolds, validate, Bool.and_eq_true]
  cases s.l.vpfxen <;> cases s.l.vsuben <;> simp

/-! ### RELEASE (R199, R200, R226) -/

section
variable {s : State}

theorem finishSuccess_ok (h : s.l.val = false ∨ validationPasses s) :
    finishSuccess s =
      { s with
        tpReq := false, owned := false, ok := true, errkind := .none
        succkind :=
          if s.l.ack = false ∧ s.l.expbytes = 0 then .sentOnly
          else if s.l.ack = true ∧ s.tlen = 0 then .handshakeOnly
          else .data
        elapsed := s.now - s.t0, attempts := s.attempt, busy := false, done := true, st := .closed
        evt := s.evt ++ releaseEntries s ++ [⟨s.now, .done true .none⟩] } := by
  have hpass : ¬ (s.l.val = true ∧ validate s = false) := by
    rcases h with h | h
    · simp [h]
    · simp [(validate_iff s).2 h]
  exact if_neg hpass

theorem finishSuccess_mismatch (hv : s.l.val = true) (h : ¬ validationPasses s) :
    finishSuccess s =
      { s with
        tpReq := false, owned := false, ok := false, errkind := .validationMismatch, succkind := .none
        elapsed := s.now - s.t0, attempts := s.attempt, busy := false, done := true, st := .closed
        evt := s.evt ++ releaseEntries s ++
          [⟨s.now, .validationMismatch⟩, ⟨s.now, .done false .validationMismatch⟩] } := by
  have hfail : s.l.val = true ∧ validate s = false := by
    rw [← validate_iff] at h
    exact ⟨hv, by simpa using h⟩
  rw [finishSuccess, if_pos hfail]
  simp [writeOutcome, emit, releaseEntries]

end

/-- Settles O36: row T24, whose validation is `validationPasses`. -/
theorem releaseWritesOutcome : Obligations.ReleaseWritesOutcome := by
  intro s hr hst
  have row := engineRows_release_eq (s := { s with txValid := false }) hst
  exact ⟨fun h => turn_engine_of_row hr (row.trans (congrArg some (finishSuccess_ok h))) rfl,
    fun hv h => turn_engine_of_row hr (row.trans (congrArg some (finishSuccess_mismatch hv h))) rfl⟩

/-! ### FAILED (R271) -/

section
variable {s : State}

theorem afterFailure_retry (h : s.attempt.toNat < s.natt.toNat) :
    afterFailure s =
      { s with
        owned := false, ctlLine := false, attempt := s.attempt + 1
        tlen := 0, expn := 0, gotn := 0, tpReq := true, st := .opening
        evt := s.evt ++ releaseEntries s ++ [⟨s.now, .attemptStart (s.attempt + 1)⟩] } :=
  if_pos (BitVec.lt_def.2 h)

theorem afterFailure_finish (h : s.natt.toNat ≤ s.attempt.toNat) :
    afterFailure s =
      { s with
        tpReq := false, owned := false, ctlLine := false
        ok := false, errkind := s.lastErr, succkind := .none, elapsed := s.now - s.t0, attempts := s.attempt
        busy := false, done := true, st := .closed
        evt := s.evt ++ releaseEntries s ++ [⟨s.now, .done false s.lastErr⟩] } :=
  if_neg (by rw [BitVec.lt_def]; omega)

end

/-- Settles O37: row T23. -/
theorem failedRetriesOrFinishes : Obligations.FailedRetriesOrFinishes := by
  intro s hr hst
  have row := engineRows_failed_eq (s := { s with txValid := false }) hst
  exact ⟨fun h => turn_engine_of_row hr (row.trans (congrArg some (afterFailure_retry h))) rfl,
    fun h => turn_engine_of_row hr (row.trans (congrArg some (afterFailure_finish h))) rfl⟩

end Sys2Proof.Machine
end

section
/-! SUPPORT. The start of an exchange (R110, R162, R163, R164). -/

namespace Sys2Proof.Machine

/-- An accepted exchange latches, builds and starts, with the mode of its command byte. -/
theorem exec_exchange {i : Instr} {s : State} {m : ChecksumMode} (hx : isExchange i = true)
    (hm : cmdCsm (encode i) = csmOfMode m) (hb : s.busy = false) (hcount : s.expbytes.toNat ≤ tmax)
    (hvalid : s.cp.valid = true) :
    exec i s = .next (startExchange (encode i) m (accept (takeCommand (encode i) s))) := by
  obtain ⟨hop, hlegal⟩ := exchange_fields hx
  have hwf : i.wellFormed = true := by rw [hlegal, hm]; cases m <;> rfl
  have hrun : operationOf i = exchangeOf (encode i) := by
    rcases operationOf_cases i s with ⟨-, h⟩ | ⟨h, -⟩
    · exact h
    · exact absurd hop h
  rw [exec_eq, issueCommand_accepted _ _ s (refusalOf_exchange hx hwf hb hcount) fun _ => hvalid, hrun, exchangeOf, hm,
    modeOfCsm_csmOfMode]

theorem frameBytes_startExchange (c : Byte) (m : ChecksumMode) (s : State) :
    frameBytes (startExchange c m s) = frameOf (payloadBytes s) (cmdWrap c) m :=
  bytesOf_storeBytes (startExchange c m s) .frame s.frame (frameOf (payloadBytes s) (cmdWrap c) m) (by simp [State.buf])

theorem readCell_startExchange (c : Byte) (m : ChecksumMode) (s : State) {j : Nat} (hj : (startExchange c m s).flen ≤ j) :
    readCell (startExchange c m s) .frame j = readCell s .frame j :=
  readCell_beyond_load (by simp [State.buf]) (by simp) hj

/-- Settles O22: the five forms differ only in their command byte, from which the descriptor is latched. -/
theorem xchgStartsExchange : Obligations.XchgStartsExchange := by
  intro i s hx hwf _ hb hcount hvalid
  obtain ⟨m, hm⟩ : ∃ m, cmdCsm (encode i) = csmOfMode m := by
    refine (csm_cases (cmdCsm (encode i))).resolve_left fun h3 => ?_
    simp [(exchange_fields hx).2, h3, legalCsm] at hwf
  refine ⟨_, m, exec_exchange hx hm hb hcount hvalid, hm, rfl, toNat_attemptsAllowed _, rfl, ?_, fun j hj => ?_⟩
  · rw [frameBytes_startExchange]
    exact frameOf_layout _ _ _
  · exact readCell_startExchange (encode i) m (accept (takeCommand (encode i) s)) hj

end Sys2Proof.Machine
end

section
/-! SUPPORT. Runs of the reference schedule (R202 (3), log 2): a wait lasts to its deadline, and the step there is the expired row. -/

namespace Sys2Proof.Machine

/-- Some number of steps leads from one state to the other. -/
def Leads (s t : State) : Prop := ∃ k, Host.Core.run Sys2Proof.core k s = .next t

theorem Leads.refl (s : State) : Leads s s := ⟨0, rfl⟩

theorem Leads.trans {s t u : State} (h : Leads s t) (h' : Leads t u) : Leads s u := by
  obtain ⟨n, hn⟩ := h
  obtain ⟨k, hk⟩ := h'
  exact ⟨n + k, (run_add Sys2Proof.core n k hn).trans hk⟩

theorem Leads.of_step {s t : State} (h : step s = .next t) : Leads s t :=
  ⟨1, run_succ Sys2Proof.core 0 h⟩

section
variable {s : State} (hr : s.resetHeld = false)
include hr

theorem step_act {a : Act} {rest : List Move} (hs : s.script = .act a :: rest) :
    step s = .next (applyAct a { s with script := rest }) := by
  simp [step, hs, performAct, hr]

variable (hs : s.script = [])
include hs

theorem step_engine {t : State} (h : engineRows { s with txValid := false } = some t) : step s = .next t := by
  have he : engineStep s = some t := h
  simp [step, hs, runAlone, hr, he]

theorem step_tick (h : engineStep s = none) : step s = .next (tick s) := by
  simp [step, hs, runAlone, hr, h]

end

/-- With no row enabled before the deadline, the clock runs to it. -/
theorem leads_wait {s : State} {d : Time} (hr : s.resetHeld = false) (hs : s.script = []) (hd : s.now ≤ d)
    (hw : ∀ u < d, engineStep { s with now := u } = none) : Leads s { s with now := d } := by
  induction hn : d.toNat - s.now.toNat generalizing s with
  | zero =>
    obtain rfl : s.now = d := by bv_omega
    exact .refl s
  | succ n ih =>
    have hlt : s.now < d := by bv_omega
    have hnext : (tick s).now ≤ d := by rw [tick_now]; bv_omega
    have hrest : d.toNat - (tick s).now.toNat = n := by rw [tick_now]; bv_omega
    exact (Leads.of_step (step_tick hr hs (hw s.now hlt))).trans (ih (s := tick s) hr hs hnext hw hrest)

/-- Settles O58: the clock runs to the deadline, where row T14 is taken. -/
theorem silentHandshakeTimesOut : Obligations.SilentHandshakeTimesOut := by
  intro s hr hst hs hq ho hf hd
  have wait : Leads s { s with now := s.dl } := leads_wait hr hs hd fun u hu =>
    engineRows_byte (s := { s with now := u, txValid := false }) hf (.inl hst) ho hq hu
  have row := engineRows_ackwait_expired (s := { s with now := s.dl, txValid := false }) hf ho hst hq (BitVec.le_refl _)
  obtain ⟨k, hk⟩ := wait.trans (Leads.of_step (step_engine (s := { s with now := s.dl }) hr hs row))
  exact ⟨k, _, hk, rfl, rfl, rfl, rfl⟩

end Sys2Proof.Machine
end

section
/-! SUPPORT. The run of a fire-and-forget exchange (R177, R227, Scenario A): the states of an attempt that only sends, with what each
adds to the time and to the transmit stream. -/

namespace Sys2Proof.Machine

/-- An attempt of fire-and-forget under the reference schedule, with a ready transmitter, no fault, and checks that an empty trace
passes. -/
structure SendsOnly (s : State) : Prop where
  released : s.resetHeld = false
  alone : s.script = []
  ready : s.txReady = true
  unfaulted : s.tpFault = false
  noAck : s.l.ack = false
  noCount : s.l.expbytes = 0
  passes : s.l.val = true → (s.l.vpfxen = true → s.vplen = 0) ∧ (s.l.vsuben = true → s.vslen = 0)
  empty : s.tlen = 0

/-- What such an attempt leaves alone until its end. -/
def State.sendContext (s : State) :
    (Bool × List Move × Bool × Bool) × (Latched × Nat × Nat × Nat) × (Memory × Nat × Nat) × Config × Time × BitVec 8 :=
  ((s.resetHeld, s.script, s.txReady, s.tpFault), (s.l, s.vplen, s.vslen, s.tlen), (s.frame, s.flen, s.epoch), s.cfg, s.t0,
    s.attempt)

theorem SendsOnly.of_context {s t : State} (h : SendsOnly s) (k : t.sendContext = s.sendContext) : SendsOnly t := by
  simp only [State.sendContext, Prod.mk.injEq] at k
  obtain ⟨⟨resetHeld, script, txReady, tpFault⟩, ⟨l, vplen, vslen, tlen⟩, -⟩ := k
  constructor <;> simp only [resetHeld, script, txReady, tpFault, l, vplen, vslen, tlen]
  exacts [h.released, h.alone, h.ready, h.unfaulted, h.noAck, h.noCount, h.passes, h.empty]

/-- The attempt of `s` has come to `t` at this time, with these bytes sent. -/
structure SendsTo (s : State) (now : Time) (sent : List Byte) (t : State) : Prop where
  leads : Leads s t
  context : t.sendContext = s.sendContext
  time : t.now = now
  stream : t.txStream = s.txStream ++ sent

section
variable {s t : State} {now : Time} {sent : List Byte}

theorem SendsTo.readFrame (p : SendsTo s now sent t) (i : Nat) : readCell t .frame i = readCell s .frame i := by
  have k := p.context
  simp only [State.sendContext, Prod.mk.injEq] at k
  obtain ⟨-, -, ⟨frame, -, epoch⟩, -⟩ := k
  exact readCell_congr epoch (by rw [State.buf, State.buf, frame])

theorem SendsTo.flen (p : SendsTo s now sent t) : t.flen = s.flen :=
  congrArg (fun k => k.2.2.1.2.1) p.context

theorem SendsTo.cfg (p : SendsTo s now sent t) : t.cfg = s.cfg :=
  congrArg (fun k => k.2.2.2.1) p.context

/-- A step of the engine that takes no time. -/
theorem SendsTo.row (h : SendsOnly s) (p : SendsTo s now sent t) {u : State} {bs : List Byte}
    (row : engineRows { t with txValid := false } = some u) (hcontext : u.sendContext = t.sendContext)
    (htime : u.now = t.now) (hstream : u.txStream = t.txStream ++ bs) : SendsTo s now (sent ++ bs) u where
  leads := p.leads.trans (.of_step (step_engine (h.of_context p.context).released (h.of_context p.context).alone row))
  context := hcontext.trans p.context
  time := htime.trans p.time
  stream := by rw [hstream, p.stream, List.append_assoc]

/-- A step of the engine that takes no time and sends nothing. -/
theorem SendsTo.silentRow (h : SendsOnly s) (p : SendsTo s now sent t) {u : State}
    (row : engineRows { t with txValid := false } = some u) (hcontext : u.sendContext = t.sendContext)
    (htime : u.now = t.now) (hstream : u.txStream = t.txStream) : SendsTo s now sent u := by
  simpa using p.row h (bs := []) row hcontext htime (by simpa using hstream)

/-- A wait for the control pulse or the settle delay (R169, R170). -/
theorem SendsTo.wait (h : SendsOnly s) (p : SendsTo s now sent t) (hst : t.st = .ctl ∨ t.st = .settle) (hd : now ≤ t.dl) :
    SendsTo s t.dl sent { t with now := t.dl } where
  leads := p.leads.trans <| leads_wait (h.of_context p.context).released (h.of_context p.context).alone (p.time ▸ hd)
    fun u hu => engineRows_control (s := { t with now := u, txValid := false }) (h.of_context p.context).unfaulted hst hu
  context := p.context
  time := rfl
  stream := p.stream

/-- From the grant to the control pulse (R167, R168). -/
theorem SendsTo.granted (h : SendsOnly s) (p : SendsTo s now sent t) (hst : t.st = .opening) (ha : t.tpAns = some .grant) :
    ∃ u, SendsTo s now sent u ∧ u.st = .ctl ∧ u.dl = now + s.cfg.tCtl := by
  have opened := p.silentRow h (engineRows_granted hst ha) rfl rfl rfl
  have hu := h.of_context opened.context
  refine ⟨_, opened.silentRow h (engineRows_purge_eq hu.unfaulted rfl) ?_ rfl rfl, rfl, ?_⟩
  · have hempty := hu.empty
    simp_all [State.sendContext, doPurge, emit, rxPurge]
  · rw [← opened.time, ← opened.cfg]
    rfl

/-- From the control pulse to the settle delay (R169). -/
theorem SendsTo.pulsed (h : SendsOnly s) (p : SendsTo s now sent t) (hst : t.st = .ctl) (hd : now ≤ t.dl) :
    ∃ u, SendsTo s t.dl sent u ∧ u.st = .settle ∧ u.dl = t.dl + s.cfg.tSettle := by
  have waited := p.wait h (.inl hst) hd
  have row := engineRows_ctl_expired (s := { t with now := t.dl, txValid := false })
    (h.of_context p.context).unfaulted hst (BitVec.le_refl _)
  exact ⟨_, waited.silentRow h row rfl rfl rfl, rfl, by rw [← p.cfg]⟩

/-- From the settle delay to the transmission (R170). -/
theorem SendsTo.settled (h : SendsOnly s) (p : SendsTo s now sent t) (hst : t.st = .settle) (hd : now ≤ t.dl) :
    ∃ u, SendsTo s t.dl sent u ∧ u.st = .tx ∧ u.txi = 0 := by
  have waited := p.wait h (.inr hst) hd
  have row := engineRows_settle_expired (s := { t with now := t.dl, txValid := false })
    (h.of_context p.context).unfaulted hst (BitVec.le_refl _)
  exact ⟨_, waited.silentRow h row rfl rfl rfl, rfl, rfl⟩

theorem transmitByte_sendContext (s : State) : (transmitByte s).sendContext = s.sendContext := by
  simp [State.sendContext]

/-- The transmission of the rest of the frame, byte by byte (R171). -/
theorem SendsTo.transmitted (h : SendsOnly s) (n : Nat) (p : SendsTo s now (bytesOf s .frame t.txi) t) (hst : t.st = .tx)
    (hn : t.txi + n = s.flen) : ∃ u, SendsTo s now (frameBytes s) u ∧ u.st = .tx ∧ u.txi = u.flen := by
  induction n generalizing t with
  | zero =>
    have hi : t.txi = s.flen := hn
    exact ⟨t, by rw [hi] at p; exact p, hst, by rw [hi, p.flen]⟩
  | succ n ih =>
    have hi : t.txi < t.flen := by rw [p.flen]; omega
    have ht := h.of_context p.context
    have row := engineRows_tx_ready (s := { t with txValid := false }) ht.unfaulted hst hi ht.ready
    have sent := p.row h row (transmitByte_sendContext _) (transmitByte_now _) (transmitByte_txStream _)
    have hnext : t.txi + 1 + n = s.flen := by omega
    refine ih (t := transmitByte { t with txValid := false }) ?_ hst hnext
    rw [transmitByte_txi, bytesOf_succ, ← p.readFrame]
    exact sent

/-- After the last byte the attempt succeeds at once (R172, R177). -/
theorem SendsTo.dispatched (h : SendsOnly s) (p : SendsTo s now sent t) (hst : t.st = .tx) (hi : t.txi = t.flen) :
    ∃ u, SendsTo s now sent u ∧ u.st = .release := by
  have ht := h.of_context p.context
  have row := engineRows_tx_done (s := { t with txValid := false }) ht.unfaulted hst hi
  exact ⟨_, p.silentRow h (row.trans (congrArg some (txDone_sentOnly ht.noAck ht.noCount))) rfl rfl rfl, rfl⟩

/-- From the grant to `RELEASE`: the frame is sent once, in order, after the two delays. -/
theorem SendsOnly.reachesRelease (h : SendsOnly s) (hst : s.st = .opening) (ha : s.tpAns = some .grant)
    (hwrap : s.now.toNat + s.cfg.tCtl.toNat + s.cfg.tSettle.toNat < 2 ^ 32) :
    ∃ t, SendsTo s (s.now + s.cfg.tCtl + s.cfg.tSettle) (frameBytes s) t ∧ t.st = .release := by
  have start : SendsTo s s.now [] s := ⟨.refl s, rfl, rfl, by simp⟩
  obtain ⟨a, pulse, hpulse, hpulseEnd⟩ := start.granted h hst ha
  obtain ⟨b, settle, hsettle, hsettleEnd⟩ := pulse.pulsed h hpulse (by rw [hpulseEnd]; bv_omega)
  rw [hpulseEnd] at settle hsettleEnd
  obtain ⟨c, tx, htx, hfirst⟩ := settle.settled h hsettle (by rw [hsettleEnd]; bv_omega)
  rw [hsettleEnd] at tx
  obtain ⟨d, sent, hsent, hlast⟩ :=
    SendsTo.transmitted (t := c) h s.flen (by rw [hfirst]; exact tx) htx (by rw [hfirst, Nat.zero_add])
  exact sent.dispatched h hsent hlast

/-- An empty trace passes the checks of empty operands (R221, R222, R227). -/
theorem SendsOnly.validates (h : SendsOnly s) : s.l.val = false ∨ validationPasses s := by
  rcases Bool.eq_false_or_eq_true s.l.val with hv | hv
  · obtain ⟨hpfx, hsub⟩ := h.passes hv
    refine .inr ⟨fun he => ?_, fun he => ⟨0, ?_⟩⟩
    · simp [prefixHolds, hpfx he]
    · simp [hsub he]
  · exact .inl hv

end

/-! ### The script of the statement: the command, the transmitter, the grant -/

/-- With the transmitter ready and the request answered, the script is at its end (R164, R260). -/
theorem leads_grant {s : State} (hr : s.resetHeld = false) (hst : s.st = .opening) (hreq : s.tpReq = true)
    (ho : s.owned = false) (ha : s.tpAns = none) (hs : s.script = [.act (.txReady true), .act (.tpAnswer .grant)]) :
    Leads s { s with txReady := true, tpAns := some .grant, script := [] } := by
  have ready : step s = .next { s with txReady := true, script := [.act (.tpAnswer .grant)] } := step_act hr hs
  have answer : step { s with txReady := true, script := [.act (.tpAnswer .grant)] } =
      .next { s with txReady := true, tpAns := some .grant, script := [] } := by
    rw [step_act (s := { s with txReady := true, script := [.act (.tpAnswer .grant)] }) hr rfl]
    exact congrArg _ (if_pos ⟨hst, hreq, ho, ha⟩)
  exact (Leads.of_step ready).trans (.of_step answer)

/-- The accepted command opens an attempt that only sends, and the transport grants it (R162, R164). -/
theorem leads_sendsOnly {s : State} {c : Byte} (m : ChecksumMode) (hr : s.resetHeld = false) (ho : s.owned = false)
    (ha : s.tpAns = none) (hf : s.tpFault = false) (hack : cmdAck c = false) (hn : s.expbytes = 0)
    (hpass : cmdVal c = true → (s.vpfxen = true → s.vplen = 0) ∧ (s.vsuben = true → s.vslen = 0))
    (hs : s.script = [.act (.txReady true), .act (.tpAnswer .grant)]) :
    ∃ u, Leads (startExchange c m s) u ∧ SendsOnly u ∧ u.st = .opening ∧ u.tpAns = some .grant ∧
      (u.now, u.t0, u.cfg, u.attempt, u.txStream) = (s.now, s.now, s.cfg, 1, s.txStream) ∧
      frameBytes u = frameOf (payloadBytes s) (cmdWrap c) m := by
  refine ⟨_, leads_grant (by simpa using hr) (by simp) (by simp) (by simpa using ho) (by simpa using ha) (by simpa using hs),
    ?_, by simp, rfl, by simp, frameBytes_startExchange c m s⟩
  constructor <;> simp [hr, hf, hn, hack, latchDescriptor]
  exact hpass

/-- Settles O57: the command starts the exchange, the attempt sends the frame (`SendsOnly.reachesRelease`), and `RELEASE` writes the
outcome. -/
theorem fireAndForgetRunsToClosed : Obligations.FireAndForgetRunsToClosed := by
  intro s wrap val m hinv hr hb hn hvalid hpass hwrap hs
  obtain ⟨ho, -, -, ha, hf⟩ := hinv.idleLines hb
  have hform : formHolds s.expbytes (.xchgFF wrap val (csmOfMode m)) = true := by simp [formHolds, hn]
  have start := (step_decoded hr hs (decode_encode hform)).trans
    (exec_exchange (s := { s with script := _ }) rfl (cmdCsm_packCmd _ _ _ _ _) hb (by simp [hn]) hvalid)
  obtain ⟨u, opening, hu, hst, ha, hkept, hframe⟩ :=
    leads_sendsOnly (s := accept (takeCommand _ { s with script := _ })) m hr ho ha hf (cmdAck_packCmd _ _ _ _ _) hn
      (fun hv => hpass ((cmdVal_packCmd _ _ _ _ _).symm.trans hv)) rfl
  simp only [Prod.mk.injEq] at hkept
  obtain ⟨hnow : u.now = s.now, ht0 : u.t0 = s.now, hcfg : u.cfg = s.cfg, hattempt, hstream : u.txStream = s.txStream⟩ :=
    hkept
  obtain ⟨t, p, hrel⟩ := hu.reachesRelease hst ha (by rw [hnow, hcfg]; exact hwrap)
  have ht := hu.of_context p.context
  have row := engineRows_release_eq (s := { t with txValid := false }) hrel
  have closed := step_engine ht.released ht.alone (row.trans (congrArg some (finishSuccess_ok ht.validates)))
  obtain ⟨k, hk⟩ := (Leads.of_step start).trans (opening.trans (p.leads.trans (.of_step closed)))
  have htime : t.t0 = u.t0 ∧ t.attempt = u.attempt :=
    ⟨congrArg (fun c => c.2.2.2.2.1) p.context, congrArg (fun c => c.2.2.2.2.2) p.context⟩
  refine ⟨k, _, frameBytes u, hk, ?_, ?_, rfl, rfl, rfl, rfl, ?_, ?_, ht.empty, rfl, ?_⟩
  · rw [hframe, cmdWrap_packCmd]
    exact frameOf_layout (payloadBytes s) wrap m
  · exact hstream ▸ p.stream
  · simp [ht.noAck, ht.noCount]
  · exact htime.2.trans hattempt
  · show t.now - t.t0 = _
    rw [p.time, htime.1, hnow, ht0, hcfg]
    bv_omega

end Sys2Proof.Machine
end

section
/-! SUPPORT. The stand-alone validator instructions while the block is host-owned (R223, R224): each writes its match to `VRES` and
ends as every stand-alone command does. -/

namespace Sys2Proof.Machine

/-- The byte of a `PFX` or a `SUB` meets no reason of R268, since its operation is neither checked for a mode or a size nor reserved. -/
theorem refusalOf_packLow {op : BitVec 3} (hop : op = 4 ∨ op = 5) (low : BitVec 5) {s : State} (hb : s.busy = false) :
    refusalOf (packLow op low) s = none := by
  rw [refusalOf_eq_none, cmdOp_packLow]
  rcases hop with rfl | rfl <;> simp [hb]

theorem exec_validatorForm {i : Instr} {op : BitVec 3} {low : BitVec 5} {s : State} (henc : encode i = packLow op low)
    (hop : op = 4 ∨ op = 5) (hb : s.busy = false) :
    exec i s = .next (operationOf i (accept (takeCommand (encode i) s))) := by
  refine exec_accepted ?_ ?_
  · rw [henc]
    exact refusalOf_packLow hop low hb
  · rw [henc, cmdOp_packLow]
    rcases hop with rfl | rfl <;> decide

/-- The bits of a `PFX` or `SUB` byte that R111 fixes: the operation. -/
theorem packLow_fixed (op : BitVec 3) (low : BitVec 5) : packLow op low &&& 0b11100000 = op.setWidth 8 <<< 5 := by
  revert op low; decide

/-- `PFX` writes the prefix match of the trace to `VRES`, whatever `VPFXEN` is (R223). -/
theorem exec_pfx (low : BitVec 5) {s : State} (hb : s.busy = false) :
    exec (.pfx low) s =
      .next { afterStandAlone (.pfx low) s with vres := prefixMatch (traceBytes s) (vpfxBytes s) } :=
  exec_validatorForm (i := .pfx low) rfl (.inl rfl) hb

/-- `SUB` writes the containment of the needle in the trace to `VRES`, whatever `VSUBEN` is (R224). -/
theorem exec_sub (low : BitVec 5) {s : State} (hb : s.busy = false) :
    exec (.sub low) s =
      .next { afterStandAlone (.sub low) s with vres := containsRun (traceBytes s) (vsubBytes s) } :=
  exec_validatorForm (i := .sub low) rfl (.inr rfl) hb

/-- Settles O18: the recursive prefix match is the cell-by-cell comparison over `VPLEN` bytes. -/
theorem pfxComparesPrefix : Obligations.PfxComparesPrefix := fun low s hb =>
  ⟨packLow_fixed 4 low, _, exec_pfx low hb, rfl, prefixMatch_iff_prefixHolds s⟩

/-- Settles O19: the search over the suffixes of the trace finds exactly its windows. -/
theorem subFindsWindow : Obligations.SubFindsWindow := fun low s hb =>
  ⟨packLow_fixed 5 low, _, exec_sub low hb, rfl, containsRun_iff_containmentHolds s⟩

end Sys2Proof.Machine
end

section
/-! SUPPORT. The presets of the command catalog (R235 to R246): an override that is mismatched or under an unrecognized key leaves
every preset as it is, and the presets with a fixed form give it. -/

namespace Sys2Proof.Machine

/-! ### The value of an override (R237) -/

theorem argValue_cons_same (a : ArgMap) (k : ArgKey) (v : ArgValue) : argValue ((k, v) :: a) k = some v := if_pos rfl

theorem argValue_cons_of_ne {k k' : ArgKey} (a : ArgMap) (v : ArgValue) (h : k ≠ k') :
    argValue ((k, v) :: a) k' = argValue a k' := if_neg h

theorem boolArg_of_bool {a : ArgMap} {k : ArgKey} {b : Bool} (h : argValue a k = some (.bool b)) (d : Bool) :
    boolArg a k d = b := by
  simp [boolArg, h]

theorem boolArg_of_absent {a : ArgMap} {k : ArgKey} (h : argValue a k = none) (d : Bool) : boolArg a k d = d := by
  simp [boolArg, h]

theorem intArg_of_absent {w : Nat} {a : ArgMap} {k : ArgKey} (h : argValue a k = none) (d : BitVec w) :
    intArg w a k d = d := by
  simp [intArg, h]

theorem timestampArg_of_absent {a : ArgMap} {k : ArgKey} (h : argValue a k = none) (d : Timestamp) :
    timestampArg a k d = d := by
  simp [timestampArg, h]

theorem boolArg_of_mismatch {a : ArgMap} {k : ArgKey} {v : ArgValue} (h : argValue a k = some v)
    (hv : ¬ ∃ b, v = .bool b) (d : Bool) : boolArg a k d = d := by
  cases v with
  | bool b => exact absurd ⟨b, rfl⟩ hv
  | int | timestamp | text => simp [boolArg, h]

theorem intArg_of_mismatch {w : Nat} {a : ArgMap} {k : ArgKey} {v : ArgValue} (h : argValue a k = some v)
    (hv : ¬ ∃ n : Int, v = .int n ∧ 0 ≤ n ∧ n < 2 ^ w) (d : BitVec w) : intArg w a k d = d := by
  cases v with
  | int n =>
    have hrange : ¬ (0 ≤ n ∧ n < 2 ^ w) := fun hn => hv ⟨n, rfl, hn⟩
    simp only [intArg, h, if_neg hrange]
  | bool | timestamp | text => simp [intArg, h]

theorem timestampArg_of_mismatch {a : ArgMap} {k : ArgKey} {v : ArgValue} (h : argValue a k = some v)
    (hv : ¬ ∃ t, v = .timestamp t) (d : Timestamp) : timestampArg a k d = d := by
  cases v with
  | timestamp t => exact absurd ⟨t, rfl⟩ hv
  | bool | int | text => simp [timestampArg, h]

/-! ### A first entry that a key ignores: one of another key, or a mismatched one where the key read its default (R237) -/

section
variable {a : ArgMap} {k k' : ArgKey} {v : ArgValue}

theorem boolArg_cons_ignored (h : k = k' → argValue a k' = none ∧ ¬ ∃ b, v = .bool b) (d : Bool) :
    boolArg ((k, v) :: a) k' d = boolArg a k' d := by
  by_cases hk : k = k'
  · obtain ⟨habsent, hv⟩ := h hk
    subst hk
    rw [boolArg_of_absent habsent, boolArg_of_mismatch (argValue_cons_same a k v) hv]
  · simp only [boolArg, argValue_cons_of_ne a v hk]

theorem intArg_cons_ignored {w : Nat} (h : k = k' → argValue a k' = none ∧ ¬ ∃ n : Int, v = .int n ∧ 0 ≤ n ∧ n < 2 ^ w)
    (d : BitVec w) : intArg w ((k, v) :: a) k' d = intArg w a k' d := by
  by_cases hk : k = k'
  · obtain ⟨habsent, hv⟩ := h hk
    subst hk
    rw [intArg_of_absent habsent, intArg_of_mismatch (argValue_cons_same a k v) hv]
  · simp only [intArg, argValue_cons_of_ne a v hk]

theorem timestampArg_cons_ignored (h : k = k' → argValue a k' = none ∧ ¬ ∃ t, v = .timestamp t) (d : Timestamp) :
    timestampArg ((k, v) :: a) k' d = timestampArg a k' d := by
  by_cases hk : k = k'
  · obtain ⟨habsent, hv⟩ := h hk
    subst hk
    rw [timestampArg_of_absent habsent, timestampArg_of_mismatch (argValue_cons_same a k v) hv]
  · simp only [timestampArg, argValue_cons_of_ne a v hk]

end

/-! ### The presets (R235, R238) -/

/-- Every recognized key reads the two argument mappings alike, whatever its default. -/
structure ReadAlike (a b : ArgMap) : Prop where
  expectAck : ∀ d, boolArg a .expectAck d = boolArg b .expectAck d
  expectBytes : ∀ d, intArg 16 a .expectBytes d = intArg 16 b .expectBytes d
  readTimeoutMs : ∀ d, intArg 32 a .readTimeoutMs d = intArg 32 b .readTimeoutMs d
  datetime : ∀ d, timestampArg a .datetime d = timestampArg b .datetime d

theorem presetSpec_congr {a b : ArgMap} (h : ReadAlike a b) (now : Timestamp) (p : Preset) :
    presetSpec now p a = presetSpec now p b := by
  cases p with
  | sendOnly => rfl
  | probe => simp only [presetSpec, probeSpec, h.expectAck, h.expectBytes, h.readTimeoutMs]
  | probeW => simp only [presetSpec, probeWSpec, h.expectAck, h.expectBytes, h.readTimeoutMs]
  | ackOnly => simp only [presetSpec, ackOnlySpec, h.readTimeoutMs]
  | statusQ => simp only [presetSpec, statusQSpec, h.expectAck, h.expectBytes, h.readTimeoutMs]
  | clockQ => simp only [presetSpec, clockQSpec, h.expectAck, h.expectBytes, h.readTimeoutMs]
  | clockSet => simp only [presetSpec, clockSetSpec, h.expectAck, h.expectBytes, h.readTimeoutMs, h.datetime]

/-- A first entry whose value its key does not accept is as good as absent; a recognized key must have no further entry, which the first
one would hide (R237). -/
theorem readAlike_cons {a : ArgMap} {k : ArgKey} {v : ArgValue} (hv : ¬ k.accepts v)
    (ha : (∀ name, k ≠ .other name) → argValue a k = none) : ReadAlike ((k, v) :: a) a := by
  have ignored (k' : ArgKey) (hrec : ∀ name, k' ≠ .other name) (hk : k = k') :
      argValue a k' = none ∧ ¬ k'.accepts v := by
    subst hk
    exact ⟨ha hrec, hv⟩
  exact {
    expectAck := boolArg_cons_ignored (ignored .expectAck nofun)
    expectBytes := intArg_cons_ignored (ignored .expectBytes nofun)
    readTimeoutMs := intArg_cons_ignored (ignored .readTimeoutMs nofun)
    datetime := timestampArg_cons_ignored (ignored .datetime nofun) }

/-- A wrapped probe with the handshake on and no count asks for the delimiter read (R240). -/
theorem probeW_decodes {a : ArgMap} (hack : argValue a .expectAck = some (.bool true))
    (hcount : argValue a .expectBytes = none) :
    decode (probeWSpec a).expectBytes (frameSpecCommand (probeWSpec a) false) =
      .ok (.xchgAD false (csmOfMode Catalog.probeWCsm)) := by
  have hbytes : (probeWSpec a).expectBytes = 0 := intArg_of_absent hcount 0
  have hcommand : frameSpecCommand (probeWSpec a) false = encode (.xchgAD false (csmOfMode Catalog.probeWCsm)) := by
    simp only [frameSpecCommand, probeWSpec, boolArg_of_bool hack, encode]
  rw [hbytes, hcommand]
  exact decode_encode rfl

/-- Settles O59: the command byte of each fixed preset is the encoding of its form, so O1 decodes it; the presets are functions of what
the recognized keys read (`presetSpec_congr`), and an ignored override changes no reading (`readAlike_cons`). -/
theorem presetForms : Obligations.PresetForms :=
  ⟨fun _ _ => ⟨_, decode_encode (i := .xchgAB false (csmOfMode Catalog.ackOnlyCsm)) rfl⟩,
    fun _ _ => ⟨_, _, decode_encode (i := .xchgFF Catalog.sendOnlyWrap false (csmOfMode Catalog.sendOnlyCsm)) rfl⟩,
    fun _ _ hack hcount => ⟨_, probeW_decodes hack hcount⟩,
    fun now p _ name _ => presetSpec_congr (readAlike_cons (k := .other name) id fun hrec => absurd rfl (hrec name)) now p,
    fun now p _ _ _ hv ha => presetSpec_congr (readAlike_cons hv fun _ => ha) now p⟩

end Sys2Proof.Machine
end

section
/-! SUPPORT. The transport's inputs as moves of the script (R260, R261): each counts in the states that look at it, and is lost
elsewhere. -/

namespace Sys2Proof.Machine

theorem tpAnswer_ignored (a : TpAnswer) {s : State} (h : s.st ≠ .opening) : tpAnswer a s = s :=
  if_neg fun ⟨hst, _⟩ => h hst

theorem tpAnswer_pending (a : TpAnswer) {s : State} (hst : s.st = .opening) (hreq : s.tpReq = true) (ho : s.owned = false)
    (ha : s.tpAns = none) : tpAnswer a s = { s with tpAns := some a } :=
  if_pos ⟨hst, hreq, ho, ha⟩

theorem tpFaultMove_ignored {s : State} (h : s.owned = false ∨ s.st.faultVisible = false) : tpFaultMove s = s := by
  refine if_neg fun ⟨ho, hv⟩ => ?_
  rcases h with h | h
  · simp [ho] at h
  · simp [hv] at h

theorem tpFaultMove_pending {s : State} (ho : s.owned = true) (hv : s.st.faultVisible = true) :
    tpFaultMove s = { s with tpFault := true } :=
  if_pos ⟨ho, hv⟩

/-- Settles O40: `FAILED` and `RELEASE` are among the states that do not look at a fault, owned or not. -/
theorem transportInputs : Obligations.TransportInputs := by
  intro s hr
  simp only [turn_eq _ s hr]
  refine ⟨fun a hst => congrArg _ (tpAnswer_ignored a hst),
    fun a hst hreq ho ha => congrArg _ (tpAnswer_pending a hst hreq ho ha), fun h => ?_,
    fun ho hv => congrArg _ (tpFaultMove_pending ho hv), fun _ => rfl⟩
  refine congrArg _ (tpFaultMove_ignored (h.imp_right ?_))
  rintro (hst | hst) <;> rw [hst] <;> rfl

end Sys2Proof.Machine
end

section
/-! SUPPORT. The two ends of the engine-owned phase (R283, R302): which steps raise `BUSY`, and which let it fall. -/

namespace Sys2Proof.Machine

/-! ### `BUSY` rises -/

/-- While the block is host-owned no row of R203 is enabled. -/
theorem OwnershipInv.not_engineRow {s t : State} (h : OwnershipInv s) (hb : s.busy = false) : ¬ EngineRow s t := fun row => by
  simp [h.busy_of_owned (engineRow_source row)] at hb

/-- No move of an agent begins the phase. -/
theorem applyAct_keeps_free (a : Act) {s : State} (h : OwnershipInv s) (hb : s.busy = false) : (applyAct a s).busy = false :=
  applyAct_keeps OwnershipInv (fun s => s.busy = false) (fun _ _ hb k => k.busy.trans hb) (fun _ h => h.of_eq rfl)
    (fun _ _ h hb row => absurd row (h.not_engineRow hb)) (fun _ => rfl) a s h hb

theorem operationOf_busy {i : Instr} (hop : cmdOp (encode i) ≠ 3) (s : State) : (operationOf i s).busy = s.busy := by
  rcases operationOf_cases i s with ⟨h, -⟩ | ⟨-, k⟩
  · exact absurd h hop
  · exact k.busy

/-- Only an exchange among the operations raises `BUSY`, so a command that raises it is a legal `XCHG` with a configuration: the
other endings of R110 leave `BUSY` alone. -/
theorem issueCommand_raises_busy {c : Byte} {run : State → State} {s : State}
    (hrun : cmdOp c ≠ 3 → ∀ u, (run u).busy = u.busy) (hb : s.busy = false) (ht : (issueCommand c run s).busy = true) :
    refusalOf c s = none ∧ cmdOp c = 3 ∧ s.cp.valid = true := by
  rcases issueCommand_cases c run s with ⟨hb', -⟩ | ⟨-, -, e⟩ | ⟨-, -, -, e⟩ | ⟨hnone, hvalid, e⟩
  · simp [hb] at hb'
  · simp [e, hb] at ht
  · simp [e, hb] at ht
  · have hop : cmdOp c = 3 := by
      by_contra hop
      simp [e, hrun hop, hb] at ht
    exact ⟨hnone, hop, hvalid hop⟩

/-- A step that raises `BUSY` issues a command, and the command is not refused. -/
theorem step_raises_busy {s t : State} (h : OwnershipInv s) (hs : step s = .next t) (hb : s.busy = false)
    (ht : t.busy = true) :
    s.resetHeld = false ∧ ∃ c rest, s.script = .command c :: rest ∧
      refusalOf c { s with script := rest } = none ∧ cmdOp c = 3 ∧ s.cp.valid = true := by
  by_cases hr : s.resetHeld = true
  · rcases step_cases_reset hr hs with ⟨-, rfl⟩ | ⟨a, rest, -, rfl⟩ | ⟨c, rest, -, rfl⟩
    · cases hb.symm.trans ht
    · have k := actWhileReset_sameEngine a { s with script := rest } hr
      cases (k.busy.trans hb).symm.trans ht
    · cases hb.symm.trans ht
  have hr : s.resetHeld = false := by simpa using hr
  rcases step_cases hr hs with
    ⟨-, he⟩ | ⟨-, -, rfl⟩ | ⟨a, rest, -, rfl⟩ | ⟨c, rest, i, hscript, hi, rfl⟩ | ⟨c, rest, _, hscript, -, rfl⟩
  · have free : OwnershipInv { s with txValid := false } := h.of_eq rfl
    exact absurd (engineStep_row he) (free.not_engineRow hb)
  · cases hb.symm.trans ht
  · have free : OwnershipInv { s with script := rest } := h.of_eq rfl
    cases (applyAct_keeps_free a free hb).symm.trans ht
  · obtain ⟨rfl, -⟩ := encode_of_decode hi
    exact ⟨hr, encode i, rest, hscript, issueCommand_raises_busy operationOf_busy hb ht⟩
  · exact ⟨hr, c, rest, hscript, issueCommand_raises_busy (fun _ _ => rfl) hb ht⟩

/-! ### `BUSY` falls -/

theorem afterFailure_lowers_busy {s : State} (hb : s.busy = true) (ht : (afterFailure s).busy = false) :
    (afterFailure s).st = .closed ∧ (afterFailure s).done = true := by
  rcases afterFailure_cases s with ⟨-, e⟩ | ⟨-, e⟩
  · simp [e, hb] at ht
  · rw [e]; exact ⟨rfl, rfl⟩

theorem finishSuccess_closes (s : State) : (finishSuccess s).st = .closed ∧ (finishSuccess s).done = true := by
  rcases finishSuccess_cases s with ⟨-, e⟩ | ⟨-, e⟩ <;> rw [e] <;> exact ⟨rfl, rfl⟩

/-- The rows that let `BUSY` fall are those that write the outcome (R200, R271). -/
theorem engineRow_lowers_busy {s t : State} (row : EngineRow s t) (hb : s.busy = true) (ht : t.busy = false) :
    (t.st = .closed ∧ t.done = true) ∧ (s.st = .failed ∨ s.st = .release) := by
  rcases engineRow_cases row with r | ⟨hst, rfl⟩ | ⟨hst, rfl⟩
  · simp [r.kept.busy, hb] at ht
  · exact ⟨afterFailure_lowers_busy hb ht, .inl hst⟩
  · exact ⟨finishSuccess_closes s, .inr hst⟩

theorem rxPush_busy (b : Byte) (s : State) : (rxPush b s).busy = s.busy := by
  rcases rxPush_cases b s with ⟨-, e⟩ | ⟨-, e⟩ <;> rw [e]

theorem step_lowers_busy {s t : State} (hs : step s = .next t) (hb : s.busy = true) (ht : t.busy = false) :
    (∃ rest, s.script = .act (.reset true) :: rest) ∨
    (t.st = .closed ∧ t.done = true ∧ (s.st = .failed ∨ s.st = .release)) := by
  cases step_effect hs with
  | engine rest _ row =>
    obtain ⟨⟨hclosed, hdone⟩, hsource⟩ := engineRow_lowers_busy row hb ht
    exact .inr ⟨hclosed, hdone, hsource⟩
  | reset rest hscript => exact .inl ⟨rest, hscript⟩
  | clock | outside | answered | faulted | commandBusy => cases hb.symm.trans ht
  | pushed b rest => cases ((rxPush_busy b { s with script := rest }).trans hb).symm.trans ht
  | host hfree => cases hb.symm.trans hfree
  | exchange => simp at ht

/-- Settles O55: a command that raises `BUSY` has passed steps 3 to 7 of R110, and only reset or a row that writes the outcome lowers
it. -/
theorem ownershipPhases : Obligations.OwnershipPhases := by
  intro s t h hs
  refine ⟨fun hb ht => ?_, step_lowers_busy hs⟩
  obtain ⟨hr, c, rest, hscript, hnone, hop, hvalid⟩ := step_raises_busy h hs hb ht
  obtain ⟨-, -, -, hcsm, hcount, -⟩ := (refusalOf_eq_none _ _).1 hnone
  have hlegal : c &&& 3 ≠ 3 := fun hc => hcsm (by simp [hop]) ((cmdCsm_eq_iff c 3).2 hc)
  have hxchg : (c >>> 5).toNat = 3 := by rw [← toNat_cmdOp, hop]; rfl
  exact ⟨hr, c, rest, hscript, hxchg, hlegal, hvalid, hcount hop⟩

end Sys2Proof.Machine
end
